-- ==== Sys2Proof/Word.lean ====
section
/-!
DEFINITION. The bit vectors DCBF is written in (00_scope.md R9, R10; 30_encoding.md R58).
-/

namespace Sys2Proof

/-- An unsigned 8-bit value (R10). -/
abbrev Byte := BitVec 8

/-- A 16-bit unsigned value: a cursor register (R16) or the IDX operand (R62). -/
abbrev Half := BitVec 16

/-- The 32-bit operation word (R58). -/
abbrev Word := BitVec 32

end Sys2Proof
end

