-- ==== Sys2Proof/Syntax.lean ====
section
/-!
DEFINITION. The twelve labels of 30_encoding.md R60, one constructor per row of opcode_table.json. The operands are
the fields IDX and DATA as they stand (R61, R62); the handlers take none (R64).
-/

namespace Sys2Proof

/-- One label of the machine (R30, R60). -/
inductive Instr where
  | wrout (idx : Half) (data : Byte)  -- R78
  | rdout (idx : Half)                -- R79
  | rdin (idx : Half)                 -- R80
  | rdstat                            -- R92
  | rdtxc                             -- R93
  | rdrxc                             -- R94
  | arm                               -- R91
  | txrdy                             -- R87
  | rxrdy (data : Byte)               -- R88
  | txh                               -- R89
  | rxh                               -- R90
  | reset                             -- R126
deriving DecidableEq, Repr

end Sys2Proof
end

