-- ==== Sys2Proof/WellFormed.lean ====
section
/-!
DEFINITION. When an operation word's four fields are well-formed (30_encoding.md R59, R60, R63, R66), and the fields
of a label. Every label is well-formed, because its operands are typed; a word need not be.
-/

namespace Sys2Proof

/-- The fields of the operation word (R59). -/
structure Fields where
  idx  : BitVec 16
  rsv  : BitVec 4
  data : BitVec 8
  op   : BitVec 4
deriving DecidableEq, Repr

/-- OP names a label: it is none of 0x0, 0xC, 0xD, 0xE (R60, R66). -/
def Fields.opLegal (f : Fields) : Bool := !(f.op == 0x0#4 || f.op == 0xC#4 || f.op == 0xD#4 || f.op == 0xE#4)

/-- RSV is 0 (R63). -/
def Fields.rsvZero (f : Fields) : Bool := f.rsv == 0#4

/-- DATA is 0 unless the label uses it: WROUT and RXRDY do (R60, R63). -/
def Fields.dataAllowed (f : Fields) : Bool := f.op == 0x1#4 || f.op == 0x9#4 || f.data == 0#8

/-- IDX is 0 unless the label uses it: WROUT, RDOUT and RDIN do (R60, R63). -/
def Fields.idxAllowed (f : Fields) : Bool := f.op == 0x1#4 || f.op == 0x2#4 || f.op == 0x3#4 || f.idx == 0#16

/-- The fields spell a label (R60, R63, R66). -/
def Fields.wellFormed (f : Fields) : Bool := f.opLegal && f.rsvZero && f.dataAllowed && f.idxAllowed

/-- The fields of a label: an operand the label does not have is 0 (R60, R70). -/
def Instr.fields : Instr → Fields
  | .wrout idx data => ⟨idx, 0, data, 0x1⟩
  | .rdout idx      => ⟨idx, 0, 0, 0x2⟩
  | .rdin idx       => ⟨idx, 0, 0, 0x3⟩
  | .rdstat         => ⟨0, 0, 0, 0x4⟩
  | .rdtxc          => ⟨0, 0, 0, 0x5⟩
  | .rdrxc          => ⟨0, 0, 0, 0x6⟩
  | .arm            => ⟨0, 0, 0, 0x7⟩
  | .txrdy          => ⟨0, 0, 0, 0x8⟩
  | .rxrdy data     => ⟨0, 0, data, 0x9⟩
  | .txh            => ⟨0, 0, 0, 0xA⟩
  | .rxh            => ⟨0, 0, 0, 0xB⟩
  | .reset          => ⟨0, 0, 0, 0xF⟩

/-- A label is well-formed when its fields are. -/
def Instr.wellFormed (i : Instr) : Bool := i.fields.wellFormed

end Sys2Proof
end

