-- ==== Sys2Proof/Decode.lean ====
section
/-!
DEFINITION. Decoding (30_encoding.md R65), total on every 32-bit word, then encoding (R70) and the opcode map of R72.
-/

namespace Sys2Proof

/-- The two decode faults (R65). Machine/Ops.lean gives each its code of 60_exceptions.md R108. -/
inductive DecodeError where
  | illegalOp      -- OP is 0x0, 0xC, 0xD or 0xE
  | reservedField  -- RSV, or a field the label does not use, is not 0
deriving DecidableEq, Repr

/-- OP, w[3:0] (R59). -/
def fieldOp (w : Word) : BitVec 4 := w.extractLsb' 0 4

/-- DATA, w[11:4] (R59, R61). -/
def fieldData (w : Word) : BitVec 8 := w.extractLsb' 4 8

/-- RSV, w[15:12] (R59). -/
def fieldRsv (w : Word) : BitVec 4 := w.extractLsb' 12 4

/-- IDX, w[31:16] (R59, R62). -/
def fieldIdx (w : Word) : BitVec 16 := w.extractLsb' 16 16

/-- The four fields of a word. -/
def fieldsOf (w : Word) : Fields := ⟨fieldIdx w, fieldRsv w, fieldData w, fieldOp w⟩

/-- The label of an operation code (R60). A code with no label is illegal (R66). -/
def labelOf (op : BitVec 4) (idx : Half) (data : Byte) : Except DecodeError Instr :=
  match op.toNat with
  | 0x1 => .ok (.wrout idx data)
  | 0x2 => .ok (.rdout idx)
  | 0x3 => .ok (.rdin idx)
  | 0x4 => .ok .rdstat
  | 0x5 => .ok .rdtxc
  | 0x6 => .ok .rdrxc
  | 0x7 => .ok .arm
  | 0x8 => .ok .txrdy
  | 0x9 => .ok (.rxrdy data)
  | 0xA => .ok .txh
  | 0xB => .ok .rxh
  | 0xF => .ok .reset
  | _   => .error .illegalOp

/-- The decoder of R65, its tests in R65's order. -/
def decode (w : Word) : Except DecodeError Instr :=
  if fieldOp w = 0x0 ∨ fieldOp w = 0xC ∨ fieldOp w = 0xD ∨ fieldOp w = 0xE then .error .illegalOp
  else if fieldRsv w ≠ 0 then .error .reservedField
  else if ¬ (fieldOp w = 0x1 ∨ fieldOp w = 0x9) ∧ fieldData w ≠ 0 then .error .reservedField
  else if ¬ (fieldOp w = 0x1 ∨ fieldOp w = 0x2 ∨ fieldOp w = 0x3) ∧ fieldIdx w ≠ 0 then .error .reservedField
  else labelOf (fieldOp w) (fieldIdx w) (fieldData w)

/-- The word of R70, (idx << 16) | (data << 4) | op. -/
def packWord (idx : Half) (data : Byte) (op : BitVec 4) : Word :=
  (idx.setWidth 32 <<< 16) ||| (data.setWidth 32 <<< 4) ||| op.setWidth 32

/-- The operation word of a label (R60, R70). -/
def encode : Instr → Word
  | .wrout idx data => packWord idx data 0x1
  | .rdout idx      => packWord idx 0 0x2
  | .rdin idx       => packWord idx 0 0x3
  | .rdstat         => packWord 0 0 0x4
  | .rdtxc          => packWord 0 0 0x5
  | .rdrxc          => packWord 0 0 0x6
  | .arm            => packWord 0 0 0x7
  | .txrdy          => packWord 0 0 0x8
  | .rxrdy data     => packWord 0 data 0x9
  | .txh            => packWord 0 0 0xA
  | .rxh            => packWord 0 0 0xB
  | .reset          => packWord 0 0 0xF

/-- The mnemonic of a label (R60). -/
def mnemonicOf : Instr → String
  | .wrout _ _ => "WROUT"
  | .rdout _   => "RDOUT"
  | .rdin _    => "RDIN"
  | .rdstat    => "RDSTAT"
  | .rdtxc     => "RDTXC"
  | .rdrxc     => "RDRXC"
  | .arm       => "ARM"
  | .txrdy     => "TXRDY"
  | .rxrdy _   => "RXRDY"
  | .txh       => "TXH"
  | .rxh       => "RXH"
  | .reset     => "RESET"

/-- One row of the opcode map (R72). -/
structure OpcodeRow where
  mnemonic : String
  pattern  : Word
  mask     : Word
deriving DecidableEq, Repr

/-- The opcode map of R72: a word encodes the row's label when w & mask == match. -/
def opcodeMap : List OpcodeRow :=
  [⟨"WROUT", 0x00000001, 0x0000F00F⟩,
   ⟨"RDOUT", 0x00000002, 0x0000FFFF⟩,
   ⟨"RDIN", 0x00000003, 0x0000FFFF⟩,
   ⟨"RDSTAT", 0x00000004, 0xFFFFFFFF⟩,
   ⟨"RDTXC", 0x00000005, 0xFFFFFFFF⟩,
   ⟨"RDRXC", 0x00000006, 0xFFFFFFFF⟩,
   ⟨"ARM", 0x00000007, 0xFFFFFFFF⟩,
   ⟨"TXRDY", 0x00000008, 0xFFFFFFFF⟩,
   ⟨"RXRDY", 0x00000009, 0xFFFFF00F⟩,
   ⟨"TXH", 0x0000000A, 0xFFFFFFFF⟩,
   ⟨"RXH", 0x0000000B, 0xFFFFFFFF⟩,
   ⟨"RESET", 0x0000000F, 0xFFFFFFFF⟩]

/-- The row's test on a word (R72). -/
def OpcodeRow.covers (r : OpcodeRow) (w : Word) : Prop := w &&& r.mask = r.pattern

/-- The operation word of a table row's bits: nbits of w, every bit above them 0. A word is a number, never a
sequence of bytes (R40), so bit i of w is bit i of the word. -/
def tableWord (nbits w : Nat) : Word := BitVec.ofNat 32 (w % 2 ^ nbits)

/-- What the decoder reads from a table row's bits. -/
def decodeTableWord (nbits w : Nat) : Option Instr :=
  match decode (tableWord nbits w) with
  | .ok i => some i
  | .error _ => none

end Sys2Proof
end

