-- ==== Sys2Proof/Config.lean ====
section
/-!
DEFINITION. The parameters of 00_scope.md R6 and R7. N is carried by every state (log entry 1); the collaborator's
and the platform's parameters are constants with no body, which no rule of the block reads (log entry 10).
-/

namespace Sys2Proof

/-- The frame size N with its bound, 1 ≤ N ≤ 65536 (R6). -/
structure FrameSize where
  size : Nat
  pos  : 1 ≤ size
  le   : size ≤ 65536
deriving DecidableEq, Repr

/-- The spec's example configuration, N = 10 (R6). DESIGN CHOICE (log entry 1, unsafe): the size of State.reset. -/
def Config.exampleFrame : FrameSize := ⟨10, by decide, by decide⟩

/-- BITRATE, OPEN (R7, D23). -/
opaque Config.bitRate : Nat

/-- CPOL, OPEN (R7, D23). -/
opaque Config.cpol : Bool

/-- CPHA, OPEN (R7, D23). -/
opaque Config.cpha : Bool

/-- HOST_MAP, OPEN (R7, R48, D22): the platform's bus address for an operation code. DESIGN CHOICE (log entry 10):
the spec gives the parameter no type. -/
opaque Config.hostMap : BitVec 4 → Nat

/-- CS_AUTO, fixed at true (R7, D23). -/
def Config.csAuto : Bool := true

/-- The serial channel as the collaborator configures it before arming (R102). -/
structure SerialConfig where
  bitRate  : Nat
  cpol     : Bool
  cpha     : Bool
  msbFirst : Bool
  csAuto   : Bool
deriving DecidableEq, Repr

/-- The collaborator's duty of R102: the OPEN values, the bit order of R41, automatic chip select. -/
def Config.serial : SerialConfig :=
  { bitRate := Config.bitRate, cpol := Config.cpol, cpha := Config.cpha, msbFirst := true, csAuto := Config.csAuto }

end Sys2Proof
end

