-- ==== Sys2Proof/Machine/State.lean ====
section
/-!
DEFINITION. The architectural state of DCBF (10_state.md R13), its reset values (R36), and why a step can stop.
-/

namespace Sys2Proof.Machine

/-- A buffer slot or the RXD latch (R10, R21). -/
inductive Cell where
  | unwritten
  | written (b : Byte)
deriving DecidableEq, Repr

/-- The engine state MODE (R18). -/
inductive Mode where
  | idle
  | running
deriving DecidableEq, Repr

/-- One address space, OUT or IN (R37): the written slots as (index, byte), in canonical form (Memory.wf). An index
that is not listed holds Unwritten (R21), so no entry can equal what an unlisted index reads as. -/
abbrev Memory := List Host.Cell

/-- The canonical form: indices strictly rising. -/
abbrev Memory.wf (m : Memory) : Prop := m.Pairwise (fun p q => p.1 < q.1)

/-- Every written slot lies in the space 0 to n-1 (R37). -/
abbrev Memory.within (m : Memory) (n : Nat) : Prop := ∀ p ∈ m, p.1 < n

/-- The fault codes of 60_exceptions.md R108. -/
inductive FaultCode where
  | illegalOp | reservedField | indexRange | unwrittenRead | seedWhileRunning
  | armBeforeSeed | armTwice | txReassert | rxOverrun | unwrittenSend
deriving DecidableEq, Repr

/-- The number of a fault code (R108). Code 0 is no fault and no constructor has it. -/
def FaultCode.number : FaultCode → Nat
  | .illegalOp        => 1
  | .reservedField    => 2
  | .indexRange       => 3
  | .unwrittenRead    => 4
  | .seedWhileRunning => 5
  | .armBeforeSeed    => 6
  | .armTwice         => 7
  | .txReassert       => 8
  | .rxOverrun        => 9
  | .unwrittenSend    => 10

/-- The fault record (R29): the code and the operation word of the label that faulted. -/
structure FaultRecord where
  code : FaultCode
  word : Word
deriving DecidableEq, Repr

/-- The result of a host read: 8 bits (RDOUT, RDIN, RDSTAT) or 16 bits (RDTXC, RDRXC), R26. -/
inductive HostResult where
  | byte (b : Byte)
  | half (h : Half)
deriving DecidableEq, Repr

/-- The state of R13, then three fields of the model's own: frame, results and script. -/
structure State where
  outBuf  : Memory              -- OUT, R14
  inBuf   : Memory              -- IN, R15
  txc     : Half                -- TXC, R16
  rxc     : Half                -- RXC, R17
  mode    : Mode                -- MODE, R18
  txp     : Bool                -- TXP, R22
  rxp     : Bool                -- RXP, R23
  rxd     : Cell                -- RXD, R24
  txlog   : List Byte           -- TXLOG, oldest first, R28
  fault   : Option FaultRecord  -- FAULT, R29
  frame   : FrameSize           -- the parameter N (R6), which no step changes; log entry 1
  results : List HostResult     -- the host reads' results, oldest first (R107); log entry 6
  script  : List Word           -- the operation words still to be taken (R31); log entry 2
deriving DecidableEq, Repr

/-- Why a step is not taken, or cannot be. A fault of the SPEC (R108) is no outcome of this kind: it is recorded in
State.fault and is a next state (R111, log entry 4). -/
inductive Fault where
  /-- Raised by every label once FAULT is set: stuck, "no label of any agent is enabled" (R111, V6). Safe. -/
  | quiescent
  /-- Raised by TXH and RXH when their guard is false: stuck, the label is not enabled (R67, R89, R90, V5). Safe. -/
  | notEnabled
  /-- Raised by TXH and RXH when their cursor is outside [0, N), which no reachable state has (R32): the slot does not
  exist and advance's precondition (R74) fails. Safe (log entry 7). -/
  | cursorOutOfRange
  /-- Raised by RXH when RXP = 1 and RXD is Unwritten, which no reachable state has (R34): the spec gives it no fault
  code (R110). Safe (log entry 8). -/
  | latchUnwritten
deriving DecidableEq, Repr

/-- Why a label has no meaning. -/
inductive Refusal where
  /-- Raised by a label's arm of exec while the label has no meaning in the model: none is left. Safe. -/
  | notModelled (mnemonic : String)
deriving DecidableEq, Repr

/-- The reset state of R36 for frame size n, at the start of a run: TXLOG empty, FAULT none. -/
def State.start (n : FrameSize) : State :=
  { outBuf := [], inBuf := [], txc := 0, rxc := 0, mode := .idle, txp := false, rxp := false, rxd := .unwritten,
    txlog := [], fault := none, frame := n, results := [], script := [] }

/-- The machine right after reset (R36), with the spec's example N = 10. DESIGN CHOICE (log entry 1): statements are
about State.start n for every n. -/
def State.reset : State := State.start Config.exampleFrame

end Sys2Proof.Machine
end

