-- ==== Sys2Proof/Machine/Ops.lean ====
section
/-!
DEFINITION. The named operations on the spaces and the registers (00_scope.md R11), fault entry (60_exceptions.md
R111), handler acknowledgement (R117) and the cursor step (40_transfer_buffers.md R74).
-/

namespace Sys2Proof.Machine

/-- The outcome of a label (R30). A result a host read gives goes to State.results. -/
abbrev StepResult := Host.Outcome State Fault Refusal

/-- MemRead: the Cell at an index (R11, R21). -/
def Memory.read : Memory → Nat → Cell
  | [], _ => .unwritten
  | (a, b) :: rest, i => if a = i then .written b else Memory.read rest i

/-- MemWrite of Written(v) at an index (R11), in canonical form. -/
def Memory.write : Memory → Nat → Byte → Memory
  | [], i, v => [(i, v)]
  | (a, b) :: rest, i, v =>
    if i < a then (i, v) :: (a, b) :: rest
    else if i = a then (i, v) :: rest
    else (a, b) :: Memory.write rest i v

/-- Whether a Cell is Written (R21). -/
def Cell.isWritten : Cell → Bool
  | .unwritten => false
  | .written _ => true

/-- Whether every slot below n is Written: ARM's test of OUT (R91). -/
def Memory.allWritten (m : Memory) : Nat → Bool
  | 0 => true
  | n + 1 => (m.read n).isWritten && m.allWritten n

/-- The cursor step advance (R74), computed on natural numbers, so that N = 65536 cannot overflow. Its precondition is
c < N; the handlers check it (log entry 7). -/
def advance (n : FrameSize) (c : Half) : Half :=
  if c.toNat + 1 = n.size then 0 else BitVec.ofNat 16 (c.toNat + 1)

/-- OUT[i] <- Written(b) (R78). -/
def State.writeOut (i : Nat) (b : Byte) (s : State) : State := { s with outBuf := s.outBuf.write i b }

/-- IN[i] <- Written(b) (R90). -/
def State.writeIn (i : Nat) (b : Byte) (s : State) : State := { s with inBuf := s.inBuf.write i b }

/-- Send(b): TXLOG <- TXLOG ++ [b] (R11, R89). -/
def State.send (b : Byte) (s : State) : State := { s with txlog := s.txlog ++ [b] }

/-- The peripheral raises transmit-ready: TXP <- 1 (R87). -/
def State.latchTx (s : State) : State := { s with txp := true }

/-- The peripheral raises receive-ready and offers b: RXP <- 1, RXD <- Written(b) (R88). -/
def State.latchRx (b : Byte) (s : State) : State := { s with rxp := true, rxd := .written b }

/-- The send acknowledges the transmit event: TXP <- 0 (R89, R117). -/
def State.ackTx (s : State) : State := { s with txp := false }

/-- The read consumes the byte and acknowledges the receive event: RXD <- Unwritten, RXP <- 0 (R90, R117). -/
def State.ackRx (s : State) : State := { s with rxp := false, rxd := .unwritten }

/-- TXC <- advance(TXC) (R77, R89). -/
def State.advanceTx (s : State) : State := { s with txc := advance s.frame s.txc }

/-- RXC <- advance(RXC) (R77, R90). -/
def State.advanceRx (s : State) : State := { s with rxc := advance s.frame s.rxc }

/-- MODE <- Running: both event sources are enabled (R91, R114). -/
def State.enableEvents (s : State) : State := { s with mode := .running }

/-- The result of a host read is given back (R11 "return v"), and recorded in order (R107, log entry 6). -/
def State.answer (r : HostResult) (s : State) : State := { s with results := s.results ++ [r] }

/-- FAULT <- (code, word), nothing else changed (R111). -/
def State.record (c : FaultCode) (w : Word) (s : State) : State := { s with fault := some ⟨c, w⟩ }

/-- RESET's assignments (70_reset_and_hazards.md R126): TXLOG and FAULT are kept, and so are the model's own fields. -/
def State.clear (s : State) : State :=
  { s with outBuf := [], inBuf := [], txc := 0, rxc := 0, mode := .idle, txp := false, rxp := false, rxd := .unwritten }

/-- The words left once the head of the script is taken (log entry 2). -/
def State.withScript (ws : List Word) (s : State) : State := { s with script := ws }

/-- raise Fault(code, word): fault entry (R11, R111), a next state with FAULT set and nothing else changed. There is no
return from it: FAULT is never cleared (R111). -/
def raise (c : FaultCode) (w : Word) (s : State) : StepResult := .next (s.record c w)

/-- Every label is stuck once FAULT is set (R30, R111). -/
def whenLive (s : State) (k : StepResult) : StepResult :=
  match s.fault with
  | none => k
  | some _ => .fault .quiescent

/-- The end of a host read: the result is given back and no architectural state changes (R45). -/
def hostReturn (r : HostResult) (s : State) : StepResult := .next (s.answer r)

/-- The code of a decode fault (R108). -/
def decodeCode : DecodeError → FaultCode
  | .illegalOp => .illegalOp
  | .reservedField => .reservedField

end Sys2Proof.Machine
end

