-- ==== Sys2Proof/Machine/Flags.lean ====
section
/-!
DEFINITION. The status bits RUN, TXP and RXP (10_state.md R25), the host's three views (R26) and the handlers' guards
(41_duplex_engine.md R89, R90). There are no condition codes (R25).
-/

namespace Sys2Proof.Machine

/-- RUN: 1 when MODE = Running (R26). -/
def State.runBit (s : State) : Bool :=
  match s.mode with
  | .idle => false
  | .running => true

/-- STATUS: bit 0 RUN, bit 1 TXP, bit 2 RXP, bits 7:3 hardwired 0 (R26, R92). -/
def State.statusByte (s : State) : Byte :=
  (BitVec.ofBool s.rxp ++ BitVec.ofBool s.txp ++ BitVec.ofBool s.runBit).setWidth 8

/-- TXCUR, zext_16(TXC) (R26, R93). -/
def State.txCur (s : State) : Half := s.txc.setWidth 16

/-- RXCUR, zext_16(RXC) (R26, R94). -/
def State.rxCur (s : State) : Half := s.rxc.setWidth 16

/-- TXH's guard: MODE = Running and TXP = 1 (R89, R95). -/
def State.txhGuard (s : State) : Bool := s.runBit && s.txp

/-- RXH's guard: MODE = Running and RXP = 1 (R90, R95). -/
def State.rxhGuard (s : State) : Bool := s.runBit && s.rxp

/-- A handler whose guard is false is stuck (R67), and the guard is tested before any fault (R112). -/
def whenEnabled (guard : Bool) (k : StepResult) : StepResult :=
  if guard then k else .fault .notEnabled

/-- Whether a label is enabled (R30): FAULT = none, and a handler's guard holds. A host or peripheral label that
faults is enabled: it is taken, and it faults. -/
def enabled (i : Instr) (s : State) : Bool :=
  s.fault.isNone &&
    match i with
    | .txh => s.txhGuard
    | .rxh => s.rxhGuard
    | .wrout _ _ | .rdout _ | .rdin _ | .rdstat | .rdtxc | .rdrxc | .arm | .txrdy | .rxrdy _ | .reset => true

end Sys2Proof.Machine
end

