-- ==== Sys2Proof/Machine/Operands.lean ====
section
/-!
DEFINITION. The operand forms: the host's index (30_encoding.md R62, 20_memory.md R38), the handlers' cursor (R64,
40_transfer_buffers.md R77), and the byte of a Cell (10_state.md R21).
-/

namespace Sys2Proof.Machine

/-- A host index: at N or more the label w raises INDEX_RANGE (R38), before every other execute-time test (R112). -/
def withIndex (idx : Half) (w : Word) (s : State) (k : StepResult) : StepResult :=
  if idx.toNat < s.frame.size then k else raise .indexRange w s

/-- A handler's cursor as a slot index (R64). Outside [0, N), which no reachable state has (R32), the handler stops
(log entry 7). -/
def withCursor (c : Half) (s : State) (k : StepResult) : StepResult :=
  if c.toNat < s.frame.size then k else .fault .cursorOutOfRange

/-- The byte of a Cell that the label w needs: an Unwritten one raises the label's content fault (R21, R110). -/
def withByte (c : Cell) (code : FaultCode) (w : Word) (s : State) (k : Byte → StepResult) : StepResult :=
  match c with
  | .written b => k b
  | .unwritten => raise code w s

/-- The byte of RXD. Unwritten with RXP = 1, which no reachable state has (R34), has no fault code: the handler stops
(log entry 8). -/
def withLatch (s : State) (k : Byte → StepResult) : StepResult :=
  match s.rxd with
  | .written b => k b
  | .unwritten => .fault .latchUnwritten

/-- current_read(OUT) = OUT[TXC] (R77). -/
def State.currentOut (s : State) : Cell := s.outBuf.read s.txc.toNat

/-- current_write(IN, b): IN[RXC] <- Written(b) (R77). -/
def State.currentIn (b : Byte) (s : State) : State := s.writeIn s.rxc.toNat b

end Sys2Proof.Machine
end

