-- ==== Sys2Proof/Machine/Events.lean ====
section
/-!
DEFINITION. The peripheral's events TXRDY and RXRDY (41_duplex_engine.md R87, R88), latched in either mode (R95).
-/

namespace Sys2Proof.Machine

/-- TXRDY (R87): TX_REASSERT when TXP = 1, else TXP <- 1. -/
def execTxrdy (s : State) : StepResult :=
  whenLive s (if s.txp then raise .txReassert (encode .txrdy) s else .next s.latchTx)

/-- RXRDY (R88): RX_OVERRUN when RXP = 1, else RXP <- 1 and RXD <- Written(data). -/
def execRxrdy (data : Byte) (s : State) : StepResult :=
  whenLive s (if s.rxp then raise .rxOverrun (encode (.rxrdy data)) s else .next (s.latchRx data))

end Sys2Proof.Machine
end

