-- ==== Sys2Proof/Machine/Handlers.lean ====
section
/-!
DEFINITION. The handlers TXH and RXH (41_duplex_engine.md R89, R90): each one atomic step (R97), its entry saving
nothing and its end restoring nothing (60_exceptions.md R116, R117).
-/

namespace Sys2Proof.Machine

/-- TXH (R89): the byte of OUT[TXC] is sent, the event acknowledged, TXC advanced. -/
def execTxh (s : State) : StepResult :=
  whenLive s (whenEnabled s.txhGuard (withCursor s.txc s (
    withByte s.currentOut .unwrittenSend (encode .txh) s (fun b => .next (s.send b).ackTx.advanceTx))))

/-- RXH (R90): the byte of RXD is stored in IN[RXC], the event acknowledged, RXC advanced. -/
def execRxh (s : State) : StepResult :=
  whenLive s (whenEnabled s.rxhGuard (withCursor s.rxc s (
    withLatch s (fun b => .next (s.currentIn b).ackRx.advanceRx))))

end Sys2Proof.Machine
end

