-- ==== Sys2Proof/Machine/HostBuffers.lean ====
section
/-!
DEFINITION. The host's buffer labels WROUT, RDOUT and RDIN (40_transfer_buffers.md R78 to R80).
-/

namespace Sys2Proof.Machine

/-- WROUT (R78): INDEX_RANGE, then SEED_WHILE_RUNNING, else OUT[idx] <- Written(data). -/
def execWrout (idx : Half) (data : Byte) (s : State) : StepResult :=
  whenLive s (withIndex idx (encode (.wrout idx data)) s (
    match s.mode with
    | .running => raise .seedWhileRunning (encode (.wrout idx data)) s
    | .idle => .next (s.writeOut idx.toNat data)))

/-- RDOUT (R79): INDEX_RANGE, then UNWRITTEN_READ, else the byte of OUT[idx], in either mode. -/
def execRdout (idx : Half) (s : State) : StepResult :=
  whenLive s (withIndex idx (encode (.rdout idx)) s (
    withByte (s.outBuf.read idx.toNat) .unwrittenRead (encode (.rdout idx)) s (fun b => hostReturn (.byte b) s)))

/-- RDIN (R80): INDEX_RANGE, then UNWRITTEN_READ, else the byte of IN[idx], in either mode. -/
def execRdin (idx : Half) (s : State) : StepResult :=
  whenLive s (withIndex idx (encode (.rdin idx)) s (
    withByte (s.inBuf.read idx.toNat) .unwrittenRead (encode (.rdin idx)) s (fun b => hostReturn (.byte b) s)))

end Sys2Proof.Machine
end

