-- ==== Sys2Proof/Machine/HostControl.lean ====
section
/-!
DEFINITION. The host's engine labels RDSTAT, RDTXC, RDRXC and ARM (41_duplex_engine.md R91 to R94).
-/

namespace Sys2Proof.Machine

/-- RDSTAT (R92): the status byte. -/
def execRdstat (s : State) : StepResult := whenLive s (hostReturn (.byte s.statusByte) s)

/-- RDTXC (R93): the outgoing cursor, 16 bits. -/
def execRdtxc (s : State) : StepResult := whenLive s (hostReturn (.half s.txCur) s)

/-- RDRXC (R94): the incoming cursor, 16 bits. -/
def execRdrxc (s : State) : StepResult := whenLive s (hostReturn (.half s.rxCur) s)

/-- ARM (R91): ARM_TWICE, then ARM_BEFORE_SEED, else MODE <- Running. It touches neither TXP nor RXP. -/
def execArm (s : State) : StepResult :=
  whenLive s (
    match s.mode with
    | .running => raise .armTwice (encode .arm) s
    | .idle =>
      if s.outBuf.allWritten s.frame.size then .next s.enableEvents else raise .armBeforeSeed (encode .arm) s)

end Sys2Proof.Machine
end

