-- ==== Sys2Proof/Machine/Reset.lean ====
section
/-!
DEFINITION. The label RESET (70_reset_and_hazards.md R126, R127).
-/

namespace Sys2Proof.Machine

/-- RESET (R126): every buffer, cursor, latch and the mode to its reset value, in either mode. -/
def execReset (s : State) : StepResult := whenLive s (.next s.clear)

end Sys2Proof.Machine
end

