-- ==== Sys2Proof/Machine/Dispatch.lean ====
section
/-!
DEFINITION. The meaning of every label (10_state.md R30), one arm each.
-/

namespace Sys2Proof.Machine

/-- One label taken in a state (R30). -/
def exec (i : Instr) (s : State) : Host.Outcome State Fault Refusal :=
  match i with
  | .wrout idx data => Sys2Proof.Machine.execWrout idx data s
  | .rdout idx => Sys2Proof.Machine.execRdout idx s
  | .rdin idx => Sys2Proof.Machine.execRdin idx s
  | .rdstat => Sys2Proof.Machine.execRdstat s
  | .rdtxc => Sys2Proof.Machine.execRdtxc s
  | .rdrxc => Sys2Proof.Machine.execRdrxc s
  | .arm => Sys2Proof.Machine.execArm s
  | .txrdy => Sys2Proof.Machine.execTxrdy s
  | .rxrdy data => Sys2Proof.Machine.execRxrdy data s
  | .txh => Sys2Proof.Machine.execTxh s
  | .rxh => Sys2Proof.Machine.execRxh s
  | .reset => Sys2Proof.Machine.execReset s

end Sys2Proof.Machine
end

