-- ==== Sys2Proof/Machine/Fetch.lean ====
section
/-!
DEFINITION. Taking one operation word (30_encoding.md R65): a word is decoded before its label's rule runs.
-/

namespace Sys2Proof.Machine

/-- The word w is taken: stuck once FAULT is set (60_exceptions.md R111), a decode fault recorded with w itself, else
the label's meaning. -/
def takeWord (w : Word) (s : State) : StepResult :=
  whenLive s (
    match decode w with
    | .ok i => exec i s
    | .error e => raise (decodeCode e) w s)

/-- No word is offered: the machine waits, unchanged (41_duplex_engine.md R101, 70_reset_and_hazards.md R128; log
entry 3). Once FAULT is set it takes no further step (R111). -/
def waitForLabel (s : State) : StepResult := whenLive s (.next s)

end Sys2Proof.Machine
end

