-- ==== Sys2Proof/Machine/Step.lean ====
section
/-!
DEFINITION. One step of the machine: the next operation word of the script is taken (10_state.md R30, R31; log
entries 2 and 3), and where withFetchWord puts a word.
-/

namespace Sys2Proof.Machine

/-- One step: the script's first word leaves the script and is taken; with no word the machine waits. -/
def step (s : State) : Host.Outcome State Fault Refusal :=
  match s.script with
  | [] => waitForLabel s
  | w :: ws => takeWord w (s.withScript ws)

/-- s with the word of a table row put first in the script, so that the very next step takes it. -/
def State.withFetchWord (s : State) (nbits w : Nat) : State := s.withScript (tableWord nbits w :: s.script)

end Sys2Proof.Machine
end

