-- ==== Sys2Proof/Machine/Agents.lean ====
section
/-!
DEFINITION. Which agent takes a label (00_scope.md R8, 60_exceptions.md R120), and the ports of a hardware realization
(41_duplex_engine.md R106, informative; log entry 14).
-/

namespace Sys2Proof.Machine

/-- The four agents (R8). -/
inductive Agent where
  | host
  | periph
  | engine
  | reset
deriving DecidableEq, Repr

/-- The agent of a label, fixed by its opcode (R30, R120). -/
def agentOf : Instr → Agent
  | .wrout _ _ => .host
  | .rdout _   => .host
  | .rdin _    => .host
  | .rdstat    => .host
  | .rdtxc     => .host
  | .rdrxc     => .host
  | .arm       => .host
  | .txrdy     => .periph
  | .rxrdy _   => .periph
  | .txh       => .engine
  | .rxh       => .engine
  | .reset     => .reset

/-- The ports of R106. -/
inductive Port where
  | rst | hostValid | hostWord | hostRdata | txReady | txData | txSend | rxReady | rxData | rxAck
deriving DecidableEq, Repr

/-- The width of a port (R106). -/
def portWidth : Port → Nat
  | .rst       => 1
  | .hostValid => 1
  | .hostWord  => 32
  | .hostRdata => 16
  | .txReady   => 1
  | .txData    => 8
  | .txSend    => 1
  | .rxReady   => 1
  | .rxData    => 8
  | .rxAck     => 1

/-- Whether a port is an input of the block (R106). -/
def portIsInput : Port → Bool
  | .rst       => true
  | .hostValid => true
  | .hostWord  => true
  | .hostRdata => false
  | .txReady   => true
  | .txData    => false
  | .txSend    => false
  | .rxReady   => true
  | .rxData    => true
  | .rxAck     => false

/-- The ports a label appears on (R106). -/
def portsOf : Instr → List Port
  | .wrout _ _ => [.hostValid, .hostWord]
  | .rdout _   => [.hostValid, .hostWord, .hostRdata]
  | .rdin _    => [.hostValid, .hostWord, .hostRdata]
  | .rdstat    => [.hostValid, .hostWord, .hostRdata]
  | .rdtxc     => [.hostValid, .hostWord, .hostRdata]
  | .rdrxc     => [.hostValid, .hostWord, .hostRdata]
  | .arm       => [.hostValid, .hostWord]
  | .txrdy     => [.txReady]
  | .rxrdy _   => [.rxReady, .rxData]
  | .txh       => [.txData, .txSend]
  | .rxh       => [.rxAck]
  | .reset     => [.rst]

/-- host_rdata for a result: an 8-bit result in bits 7:0, bits 15:8 zero (R106). -/
def rdataOf : HostResult → BitVec 16
  | .byte b => b.setWidth 16
  | .half h => h

end Sys2Proof.Machine
end

