-- ==== Sys2Proof/Machine/Asm.lean ====
section
/-!
DEFINITION. The text form of a script (30_encoding.md R69) and its pseudo-instructions (R71). What the assembler
refuses is an assembly error, not a machine fault. White space and the case of hexadecimal digits: log entry 13.
-/

namespace Sys2Proof.Machine

/-- Why a line does not assemble (R69, R71). -/
inductive AsmError where
  | unknownMnemonic
  | operandCount    -- a missing or extra operand
  | operandRange    -- idx > 65535 or data > 255
  | badNumber       -- neither decimal nor 0x hexadecimal
deriving DecidableEq, Repr

/-- An index operand, at most 65535 (R69). -/
def asmIdx (n : Nat) : Except AsmError Half :=
  if n ≤ 65535 then .ok (BitVec.ofNat 16 n) else .error .operandRange

/-- A data operand, at most 255 (R69). -/
def asmData (n : Nat) : Except AsmError Byte :=
  if n ≤ 255 then .ok (BitVec.ofNat 8 n) else .error .operandRange

/-- A list of data operands. -/
def asmBytes : List Nat → Except AsmError (List Byte)
  | [] => .ok []
  | n :: ns =>
    match asmData n, asmBytes ns with
    | .ok b, .ok bs => .ok (b :: bs)
    | _, _ => .error .operandRange

/-- WROUT's operands. -/
def asmWrout : List Nat → Except AsmError (List Instr)
  | [i, d] =>
    match asmIdx i, asmData d with
    | .ok idx, .ok data => .ok [.wrout idx data]
    | _, _ => .error .operandRange
  | _ => .error .operandCount

/-- One index operand. -/
def asmIndexed (f : Half → List Instr) : List Nat → Except AsmError (List Instr)
  | [i] => (asmIdx i).map f
  | _ => .error .operandCount

/-- One data operand. -/
def asmByte (f : Byte → List Instr) : List Nat → Except AsmError (List Instr)
  | [d] => (asmData d).map f
  | _ => .error .operandCount

/-- No operand. -/
def asmPlain (l : List Instr) : List Nat → Except AsmError (List Instr)
  | [] => .ok l
  | _ => .error .operandCount

/-- WROUT k, b0, then WROUT k + 1, b1, and so on. -/
def seedFrom : Nat → List Byte → List Instr
  | _, [] => []
  | k, b :: bs => .wrout (BitVec.ofNat 16 k) b :: seedFrom (k + 1) bs

/-- SEED b0, ..., b(N-1) (R71): N WROUT labels. -/
def seedLabels (bs : List Byte) : List Instr := seedFrom 0 bs

/-- TXEV (R71): one transmit-ready event, handled at once. -/
def txev : List Instr := [.txrdy, .txh]

/-- RXEV b (R71): one receive-ready event delivering b, handled at once. -/
def rxev (b : Byte) : List Instr := [.rxrdy b, .rxh]

/-- SEED's operands: exactly N (R71). -/
def asmSeed (n : FrameSize) (ops : List Nat) : Except AsmError (List Instr) :=
  if ops.length = n.size then (asmBytes ops).map seedLabels else .error .operandCount

/-- A mnemonic with its operands, for frame size n (R69, R71). -/
def assemble (n : FrameSize) (mnemonic : List Char) (ops : List Nat) : Except AsmError (List Instr) :=
  if mnemonic = "WROUT".toList then asmWrout ops
  else if mnemonic = "RDOUT".toList then asmIndexed (fun idx => [.rdout idx]) ops
  else if mnemonic = "RDIN".toList then asmIndexed (fun idx => [.rdin idx]) ops
  else if mnemonic = "RDSTAT".toList then asmPlain [.rdstat] ops
  else if mnemonic = "RDTXC".toList then asmPlain [.rdtxc] ops
  else if mnemonic = "RDRXC".toList then asmPlain [.rdrxc] ops
  else if mnemonic = "ARM".toList then asmPlain [.arm] ops
  else if mnemonic = "TXRDY".toList then asmPlain [.txrdy] ops
  else if mnemonic = "RXRDY".toList then asmByte (fun b => [.rxrdy b]) ops
  else if mnemonic = "TXH".toList then asmPlain [.txh] ops
  else if mnemonic = "RXH".toList then asmPlain [.rxh] ops
  else if mnemonic = "RESET".toList then asmPlain [.reset] ops
  else if mnemonic = "SEED".toList then asmSeed n ops
  else if mnemonic = "TXEV".toList then asmPlain txev ops
  else if mnemonic = "RXEV".toList then asmByte rxev ops
  else .error .unknownMnemonic

/-- Space or tab (log entry 13). -/
def isBlank (c : Char) : Bool := c = ' ' || c = '\t'

/-- A text without the blanks at its two ends. -/
def trimBlanks (cs : List Char) : List Char := ((cs.dropWhile isBlank).reverse.dropWhile isBlank).reverse

/-- A text cut at its commas. -/
def splitCommas : List Char → List (List Char)
  | [] => [[]]
  | c :: cs =>
    match splitCommas cs with
    | [] => [[c]]
    | p :: ps => if c = ',' then [] :: p :: ps else (c :: p) :: ps

/-- The value of a digit in base 10 or 16 (log entry 13: hexadecimal digits of either case). -/
def digitValue (base : Nat) (c : Char) : Option Nat :=
  let v :=
    if '0' ≤ c ∧ c ≤ '9' then c.toNat - '0'.toNat
    else if 'A' ≤ c ∧ c ≤ 'F' then c.toNat - 'A'.toNat + 10
    else if 'a' ≤ c ∧ c ≤ 'f' then c.toNat - 'a'.toNat + 10
    else base
  if v < base then some v else none

/-- The number whose digits follow those of acc. -/
def digitsValue (base : Nat) : List Char → Nat → Option Nat
  | [], acc => some acc
  | c :: cs, acc =>
    match digitValue base c with
    | some v => digitsValue base cs (acc * base + v)
    | none => none

/-- At least one digit. -/
def numberIn (base : Nat) : List Char → Option Nat
  | [] => none
  | c :: cs => digitsValue base (c :: cs) 0

/-- A decimal number, or a hexadecimal one with the prefix 0x (R69). -/
def parseNumber : List Char → Option Nat
  | '0' :: 'x' :: cs => numberIn 16 cs
  | cs => numberIn 10 cs

/-- Every piece read as a number. -/
def parseNumbers : List (List Char) → Option (List Nat)
  | [] => some []
  | p :: ps =>
    match parseNumber (trimBlanks p), parseNumbers ps with
    | some n, some ns => some (n :: ns)
    | _, _ => none

/-- The operands of a line: none, or numbers parted by commas (R69). -/
def parseOperands (cs : List Char) : Option (List Nat) :=
  if cs = [] then some [] else parseNumbers (splitCommas cs)

/-- One line of a script for frame size n: a comment starts at ';' (R69), and a line with nothing else is empty. -/
def assembleLine (n : FrameSize) (line : List Char) : Except AsmError (List Instr) :=
  let body := trimBlanks (line.takeWhile (fun c => c != ';'))
  let mnemonic := body.takeWhile (fun c => !isBlank c)
  let rest := trimBlanks (body.dropWhile (fun c => !isBlank c))
  if body = [] then .ok []
  else
    match parseOperands rest with
    | none => .error .badNumber
    | some ops => assemble n mnemonic ops

/-- A script: its lines in order, refused at the first line that is (R69). -/
def assembleScript (n : FrameSize) : List (List Char) → Except AsmError (List Instr)
  | [] => .ok []
  | l :: ls =>
    match assembleLine n l with
    | .error e => .error e
    | .ok is =>
      match assembleScript n ls with
      | .error e => .error e
      | .ok js => .ok (is ++ js)

end Sys2Proof.Machine
end

