-- ==== Sys2Proof/Machine/Wire.lean ====
section
/-!
DEFINITION. The order of a byte's bits on the serial wire (20_memory.md R41). DCBF itself never sees bits: these
functions say what TXLOG and RXRDY's byte mean on the wire (log entry 12).
-/

namespace Sys2Proof.Machine

/-- A byte's bits in wire order, b[7] first and b[0] last (R41). -/
def wireBits (b : Byte) : List Bool := (List.range 8).map (fun k => b.getLsbD (7 - k))

/-- The byte whose bits arrive in wire order: the first bit on the wire is b[7] (R41). -/
def byteOfWire (bits : List Bool) : Byte :=
  bits.foldl (fun acc bit => (acc <<< 1) ||| (BitVec.ofBool bit).setWidth 8) 0

/-- The bits of every byte sent, in order (R28, R41). -/
def State.wireOut (s : State) : List Bool := s.txlog.flatMap wireBits

end Sys2Proof.Machine
end

