-- ==== Sys2Proof/Safety.lean ====
section
/-!
DEFINITION. What counts as a safe run: the invariants of 10_state.md R32 to R34 with the memory's form, reachable
states, runs of labels, the contract of 60_exceptions.md R113, and the premises of liveness claims (R98, R99).
-/

namespace Sys2Proof.Machine

/-- Both cursors are below N (R32). -/
abbrev State.cursorsInRange (s : State) : Prop := s.txc.toNat < s.frame.size ∧ s.rxc.toNat < s.frame.size

/-- Running means that every slot of OUT is Written (R33). -/
abbrev State.seededWhenRunning (s : State) : Prop :=
  s.mode = .running → ∀ i < s.frame.size, s.outBuf.read i ≠ .unwritten

/-- RXP = 1 exactly when RXD is Written (R34). -/
abbrev State.latchAgrees (s : State) : Prop := s.rxp = true ↔ s.rxd ≠ .unwritten

/-- Both spaces are in canonical form and hold no slot at N or above (R37). -/
abbrev State.spacesWf (s : State) : Prop :=
  (s.outBuf.wf ∧ s.inBuf.wf) ∧ s.outBuf.within s.frame.size ∧ s.inBuf.within s.frame.size

/-- The machine's invariant. -/
abbrev State.Inv (s : State) : Prop :=
  s.cursorsInRange ∧ s.seededWhenRunning ∧ s.latchAgrees ∧ s.spacesWf

/-- FAULT = none: the good end of a run (R101, R107). -/
abbrev State.good (s : State) : Prop := s.fault = none

/-- The states that runs reach from reset with frame size n, under every script (R30, R31, R128). -/
inductive Reachable (n : FrameSize) : State → Prop
  | start (ws : List Word) : Reachable n ((State.start n).withScript ws)
  | next {s t : State} (h : Reachable n s) (hs : step s = .next t) : Reachable n t

/-- The state after a schedule of labels, taken in order; none where one of them is not taken (R67, R101). -/
def runLabels : List Instr → State → Option State
  | [], s => some s
  | i :: is, s =>
    match exec i s with
    | .next t => runLabels is t
    | .fault _ => none
    | .refused _ => none

/-- The bytes PERIPH offers in a schedule, in order (R88). -/
def offered : List Instr → List Byte
  | [] => []
  | .rxrdy b :: is => b :: offered is
  | .wrout _ _ :: is | .rdout _ :: is | .rdin _ :: is | .rdstat :: is | .rdtxc :: is | .rdrxc :: is | .arm :: is
  | .txrdy :: is | .txh :: is | .rxh :: is | .reset :: is => offered is

/-- The label keeps the source's contract in s (R113): seed before ARM, no seeding after ARM, indices below N, reads only
of filled slots, no second event before the acknowledgement; and one ARM (R84, R91; DEDUCED, log entry 15). -/
def keepsContract (i : Instr) (s : State) : Prop :=
  match i with
  | .wrout idx _ => idx.toNat < s.frame.size ∧ s.mode = .idle
  | .rdout idx   => idx.toNat < s.frame.size ∧ s.outBuf.read idx.toNat ≠ .unwritten
  | .rdin idx    => idx.toNat < s.frame.size ∧ s.inBuf.read idx.toNat ≠ .unwritten
  | .arm         => s.mode = .idle ∧ ∀ k < s.frame.size, s.outBuf.read k ≠ .unwritten
  | .txrdy       => s.txp = false
  | .rxrdy _     => s.rxp = false
  | .rdstat | .rdtxc | .rdrxc | .txh | .rxh | .reset => True

/-- The states that a run keeping the contract reaches (R113). -/
inductive ContractReachable (n : FrameSize) : State → Prop
  | start (ws : List Word) : ContractReachable n ((State.start n).withScript ws)
  | label {s t : State} (i : Instr) (h : ContractReachable n s) (hk : keepsContract i s) (hs : exec i s = .next t) :
      ContractReachable n t

/-- The cause R108 gives a fault code, for the operation word w taken in s. -/
def faultCause (c : FaultCode) (w : Word) (s : State) : Prop :=
  match c with
  | .illegalOp => decode w = .error .illegalOp
  | .reservedField => decode w = .error .reservedField
  | .indexRange =>
    ∃ idx data, s.frame.size ≤ idx.toNat ∧
      (decode w = .ok (.wrout idx data) ∨ decode w = .ok (.rdout idx) ∨ decode w = .ok (.rdin idx))
  | .unwrittenRead =>
    ∃ idx, (decode w = .ok (.rdout idx) ∧ s.outBuf.read idx.toNat = .unwritten) ∨
      (decode w = .ok (.rdin idx) ∧ s.inBuf.read idx.toNat = .unwritten)
  | .seedWhileRunning => ∃ idx data, decode w = .ok (.wrout idx data) ∧ s.mode = .running
  | .armBeforeSeed => decode w = .ok .arm ∧ ∃ k < s.frame.size, s.outBuf.read k = .unwritten
  | .armTwice => decode w = .ok .arm ∧ s.mode = .running
  | .txReassert => decode w = .ok .txrdy ∧ s.txp = true
  | .rxOverrun => ∃ data, decode w = .ok (.rxrdy data) ∧ s.rxp = true
  | .unwrittenSend => decode w = .ok .txh ∧ s.outBuf.read s.txc.toNat = .unwritten

/-- The transmit side of a state (R52): what TXH may read or write, with the parameter N and the mode. -/
def State.txSide (s : State) : FrameSize × Memory × Half × Bool × List Byte × Mode :=
  (s.frame, s.outBuf, s.txc, s.txp, s.txlog, s.mode)

/-- The receive side of a state (R52): what RXH may read or write, with the parameter N and the mode. -/
def State.rxSide (s : State) : FrameSize × Memory × Half × Bool × Cell × Mode :=
  (s.frame, s.inBuf, s.rxc, s.rxp, s.rxd, s.mode)

/-- An endless run: a label at every moment, and the state before it (R99). -/
structure EndlessRun where
  state : Nat → State
  label : Nat → Instr
  taken : ∀ k, exec (label k) (state k) = .next (state (k + 1))

/-- AUTO_REPEAT (R98): after each TXH, PERIPH eventually takes TXRDY. -/
def EndlessRun.autoRepeat (r : EndlessRun) : Prop := ∀ k, r.label k = .txh → ∃ j, k < j ∧ r.label j = .txrdy

/-- Weak fairness of a label (R99): a step that stays enabled is eventually taken. -/
def EndlessRun.weaklyFair (r : EndlessRun) (i : Instr) : Prop :=
  ∀ k, (∀ j, k ≤ j → enabled i (r.state j) = true) → ∃ j, k ≤ j ∧ r.label j = i

end Sys2Proof.Machine
end

