-- ==== Sys2Proof/Certificates/Slice0/Obligations.lean ====
section
/-!
DEFINITION. The statements for the provers, each from the rules of spec/ its docstring names.
-/

open Sys2Proof Sys2Proof.Machine

/-! ### Encoding -/

/-- R65, R70: decoding a label's word gives the label back, for every label and every operand. -/
def Obligations.DecodeOfEncodeIsTheLabel : Prop := ∀ i : Instr, decode (encode i) = .ok i

/-- R65, R70: a word that decodes is the word of its label, so no bit of it is dropped. -/
def Obligations.EncodeOfDecodeIsTheWord : Prop := ∀ (w : Word) (i : Instr), decode w = .ok i → encode i = w

/-- R65: the decoder's tests on the spec's own slices of w, in its order; otherwise the label of w[3:0] with the
operands w[31:16] and w[11:4]. R65, R111: a word that does not decode enters that fault, with w, and changes nothing
else; that the word has left the script is the model's choice, log entry 2. -/
def Obligations.DecoderFollowsItsRule : Prop :=
  (∀ (w : Word) (ws : List Word) (s : State), s.fault = none → s.script = w :: ws →
    (decode w = .error .illegalOp → step s = .next { s with script := ws, fault := some ⟨.illegalOp, w⟩ }) ∧
    (decode w = .error .reservedField →
      step s = .next { s with script := ws, fault := some ⟨.reservedField, w⟩ })) ∧
  ∀ w : Word,
    let op : BitVec 4 := w.extractLsb 3 0
    let rsv : BitVec 4 := w.extractLsb 15 12
    let data : BitVec 8 := w.extractLsb 11 4
    let idx : BitVec 16 := w.extractLsb 31 16
    if op = 0x0 ∨ op = 0xC ∨ op = 0xD ∨ op = 0xE then decode w = .error .illegalOp
    else if rsv ≠ 0 then decode w = .error .reservedField
    else if (op ≠ 0x1 ∧ op ≠ 0x9) ∧ data ≠ 0 then decode w = .error .reservedField
    else if (op ≠ 0x1 ∧ op ≠ 0x2 ∧ op ≠ 0x3) ∧ idx ≠ 0 then decode w = .error .reservedField
    else ∃ i : Instr, decode w = .ok i ∧ i.fields = ⟨idx, 0, data, op⟩

/-- R72: a word encodes a row's label exactly when w & mask == match, and a word with a legal OP that fails every row's
test faults with RESERVED_FIELD. -/
def Obligations.OpcodeMapDecides : Prop :=
  ∀ w : Word,
    (∀ r ∈ opcodeMap, (w &&& r.mask = r.pattern ↔ ∃ i : Instr, decode w = .ok i ∧ mnemonicOf i = r.mnemonic)) ∧
    ((∀ r ∈ opcodeMap, w &&& r.mask ≠ r.pattern) → fieldOp w ∉ [0x0#4, 0xC#4, 0xD#4, 0xE#4] →
      decode w = .error .reservedField)

/-- R72: no word passes the tests of two rows of the opcode map. -/
def Obligations.OpcodeRowsDoNotOverlap : Prop :=
  opcodeMap.Pairwise (fun r q => ∀ w : Word, ¬ (r.covers w ∧ q.covers w))

/-- R70: the encoded word as a number, and the rule's four examples. -/
def Obligations.EncodedWordIsItsFields : Prop :=
  (∀ i : Instr, (encode i).toNat = i.fields.idx.toNat * 2 ^ 16 + i.fields.data.toNat * 2 ^ 4 + i.fields.op.toNat) ∧
  encode (.wrout 9 0x09) = 0x00090091 ∧ encode (.rdin 3) = 0x00030003 ∧ encode (.rxrdy 0xA0) = 0x00000A09 ∧
  encode .arm = 0x00000007

/-- R72, 95_test_vectors.md 2.2: words written out from the encoding decode to their labels, one of each family. -/
def Obligations.SpecWordsDecode : Prop :=
  decode 0xFFFF0FF1 = .ok (.wrout 65535 0xFF) ∧ decode 0x00030002 = .ok (.rdout 3) ∧
  decode 0x00090003 = .ok (.rdin 9) ∧ decode 0x00000004 = .ok .rdstat ∧ decode 0x00000007 = .ok .arm ∧
  decode 0x00000008 = .ok .txrdy ∧ decode 0x00000FF9 = .ok (.rxrdy 0xFF) ∧ decode 0x0000000A = .ok .txh ∧
  decode 0x0000000B = .ok .rxh ∧ decode 0x0000000F = .ok .reset

/-! ### The step -/

/-- R30, R65: the next word of the script, where it decodes, is taken as its label, with the word gone from the script
(the script is the model's own, log entry 2). -/
def Obligations.StepTakesTheDecodedLabel : Prop :=
  ∀ (s : State) (w : Word) (ws : List Word) (i : Instr),
    s.fault = none → s.script = w :: ws → decode w = .ok i → step s = exec i { s with script := ws }

/-- R65, R66, R111: a word with OP 0x0, 0xC, 0xD or 0xE faults with ILLEGAL_OP, whatever its other fields. That the
word has left the script is the model's choice, log entry 2. -/
def Obligations.IllegalOpcodeFaults : Prop :=
  ∀ (s : State) (w : Word) (ws : List Word),
    s.fault = none → s.script = w :: ws → fieldOp w ∈ [0x0#4, 0xC#4, 0xD#4, 0xE#4] →
    step s = .next { s with script := ws, fault := some ⟨.illegalOp, w⟩ }

/-- R63, R65: with a legal OP, RSV or a field the label does not use being nonzero faults with RESERVED_FIELD at decode.
R111: nothing else changes; that the word has left the script is the model's choice, log entry 2. -/
def Obligations.ReservedFieldFaults : Prop :=
  ∀ (s : State) (w : Word) (ws : List Word),
    s.fault = none → s.script = w :: ws → fieldOp w ∉ [0x0#4, 0xC#4, 0xD#4, 0xE#4] →
    (fieldRsv w ≠ 0 ∨ (fieldOp w ∉ [0x1#4, 0x9#4] ∧ fieldData w ≠ 0) ∨
      (fieldOp w ∉ [0x1#4, 0x2#4, 0x3#4] ∧ fieldIdx w ≠ 0)) →
    step s = .next { s with script := ws, fault := some ⟨.reservedField, w⟩ }

/-- R101, R128: with no word offered the machine waits, unchanged. The model's choice, log entry 3. -/
def Obligations.StepWaitsWithNoWord : Prop := ∀ s : State, s.fault = none → s.script = [] → step s = .next s

/-- R29, R111: once FAULT is set no label of any agent is enabled, RESET included. The outcome's name is the model's,
log entry 5. -/
def Obligations.FaultedMachineIsStuck : Prop :=
  ∀ s : State, s.fault ≠ none → (∀ i : Instr, exec i s = .fault .quiescent) ∧ step s = .fault .quiescent

/-- R111: a faulting step sets FAULT to (code, word of the label) and changes nothing else, and after it no label is
enabled. The name of the stuck outcome is the model's, log entry 5, and that the word has left the script, log entry 2. -/
def Obligations.FaultEntryChangesOnlyFault : Prop :=
  ∀ (s t : State) (w : Word) (ws : List Word),
    s.fault = none → s.script = w :: ws → step s = .next t → t.fault ≠ none →
    (∃ c, t = { s with script := ws, fault := some ⟨c, w⟩ }) ∧
      (∀ i : Instr, exec i t = .fault .quiescent) ∧ step t = .fault .quiescent

/-- R108: the codes' numbers, and a recorded fault holds the faulting word and has the cause its code names. -/
def Obligations.RecordedFaultHasItsCause : Prop :=
  ([FaultCode.illegalOp, .reservedField, .indexRange, .unwrittenRead, .seedWhileRunning, .armBeforeSeed, .armTwice,
      .txReassert, .rxOverrun, .unwrittenSend].map FaultCode.number = [1, 2, 3, 4, 5, 6, 7, 8, 9, 10]) ∧
  ∀ (s t : State) (w : Word) (ws : List Word) (r : FaultRecord),
    s.fault = none → s.script = w :: ws → step s = .next t → t.fault = some r → r.word = w ∧ faultCause r.code w s

/-- R112: which fault one label reports, per label, and that a handler's guard and the decoder come first. The name of
the stuck outcome is the model's, log entry 5, and that a word has left the script, log entry 2. -/
def Obligations.FaultPriorityPerLabel : Prop :=
  ∀ s : State, s.fault = none →
    (∀ w ws, s.script = w :: ws → fieldOp w ∈ [0x0#4, 0xC#4, 0xD#4, 0xE#4] →
      step s = .next { s with script := ws, fault := some ⟨.illegalOp, w⟩ }) ∧
    (∀ w ws, s.script = w :: ws → decode w = .error .reservedField →
      step s = .next { s with script := ws, fault := some ⟨.reservedField, w⟩ }) ∧
    (∀ idx data, s.frame.size ≤ idx.toNat →
      exec (.wrout idx data) s = .next { s with fault := some ⟨.indexRange, encode (.wrout idx data)⟩ }) ∧
    (∀ idx data, idx.toNat < s.frame.size → s.mode = .running →
      exec (.wrout idx data) s = .next { s with fault := some ⟨.seedWhileRunning, encode (.wrout idx data)⟩ }) ∧
    (∀ idx, s.frame.size ≤ idx.toNat →
      exec (.rdout idx) s = .next { s with fault := some ⟨.indexRange, encode (.rdout idx)⟩ } ∧
      exec (.rdin idx) s = .next { s with fault := some ⟨.indexRange, encode (.rdin idx)⟩ }) ∧
    (∀ idx, idx.toNat < s.frame.size → s.outBuf.read idx.toNat = .unwritten →
      exec (.rdout idx) s = .next { s with fault := some ⟨.unwrittenRead, encode (.rdout idx)⟩ }) ∧
    (∀ idx, idx.toNat < s.frame.size → s.inBuf.read idx.toNat = .unwritten →
      exec (.rdin idx) s = .next { s with fault := some ⟨.unwrittenRead, encode (.rdin idx)⟩ }) ∧
    (s.mode = .running → exec .arm s = .next { s with fault := some ⟨.armTwice, 0x00000007⟩ }) ∧
    (s.mode = .idle → (∃ i < s.frame.size, s.outBuf.read i = .unwritten) →
      exec .arm s = .next { s with fault := some ⟨.armBeforeSeed, 0x00000007⟩ }) ∧
    (s.txp = true → exec .txrdy s = .next { s with fault := some ⟨.txReassert, 0x00000008⟩ }) ∧
    (s.rxp = true → ∀ data,
      exec (.rxrdy data) s = .next { s with fault := some ⟨.rxOverrun, encode (.rxrdy data)⟩ }) ∧
    (¬ (s.mode = .running ∧ s.txp = true) → exec .txh s = .fault .notEnabled)

/-- R31, with log entries 1 and 2: a step takes at most the script's first word, and never changes the parameter N. -/
def Obligations.StepTakesOneWordAndKeepsN : Prop :=
  ∀ s t : State, step s = .next t → t.script = s.script.tail ∧ t.frame = s.frame

/-! ### The host's buffer labels -/

/-- R78: WROUT, every case: INDEX_RANGE at N or more, SEED_WHILE_RUNNING in Running, else the slot is written and every
other slot and every other part of the state is unchanged. -/
def Obligations.WroutSeedsItsSlot : Prop :=
  ∀ (idx : Half) (data : Byte) (s : State), s.fault = none →
    (s.frame.size ≤ idx.toNat →
      exec (.wrout idx data) s = .next { s with fault := some ⟨.indexRange, encode (.wrout idx data)⟩ }) ∧
    (idx.toNat < s.frame.size → s.mode = .running →
      exec (.wrout idx data) s = .next { s with fault := some ⟨.seedWhileRunning, encode (.wrout idx data)⟩ }) ∧
    (idx.toNat < s.frame.size → s.mode = .idle →
      ∃ t, exec (.wrout idx data) s = .next t ∧ t.outBuf.read idx.toNat = .written data ∧
        (∀ j, j ≠ idx.toNat → t.outBuf.read j = s.outBuf.read j) ∧ t = { s with outBuf := t.outBuf })

/-- R79: RDOUT, every case: INDEX_RANGE, then UNWRITTEN_READ, else the slot's byte is returned, in either mode, and no
state changes (the result is recorded in results, log entry 6). -/
def Obligations.RdoutReturnsItsSlot : Prop :=
  ∀ (idx : Half) (s : State), s.fault = none →
    (s.frame.size ≤ idx.toNat →
      exec (.rdout idx) s = .next { s with fault := some ⟨.indexRange, encode (.rdout idx)⟩ }) ∧
    (idx.toNat < s.frame.size → s.outBuf.read idx.toNat = .unwritten →
      exec (.rdout idx) s = .next { s with fault := some ⟨.unwrittenRead, encode (.rdout idx)⟩ }) ∧
    (∀ b, idx.toNat < s.frame.size → s.outBuf.read idx.toNat = .written b →
      exec (.rdout idx) s = .next { s with results := s.results ++ [.byte b] })

/-- R80: RDIN, every case, as RDOUT for IN (the result is recorded in results, log entry 6). -/
def Obligations.RdinReturnsItsSlot : Prop :=
  ∀ (idx : Half) (s : State), s.fault = none →
    (s.frame.size ≤ idx.toNat →
      exec (.rdin idx) s = .next { s with fault := some ⟨.indexRange, encode (.rdin idx)⟩ }) ∧
    (idx.toNat < s.frame.size → s.inBuf.read idx.toNat = .unwritten →
      exec (.rdin idx) s = .next { s with fault := some ⟨.unwrittenRead, encode (.rdin idx)⟩ }) ∧
    (∀ b, idx.toNat < s.frame.size → s.inBuf.read idx.toNat = .written b →
      exec (.rdin idx) s = .next { s with results := s.results ++ [.byte b] })

/-! ### The host's engine labels -/

/-- R92, R26: RDSTAT returns RUN in bit 0, TXP in bit 1, RXP in bit 2, bits 7:3 zero, and no state changes (the result
is recorded in results, log entry 6). -/
def Obligations.RdstatReturnsTheStatusBits : Prop :=
  ∀ s : State, s.fault = none →
    ∃ b : Byte, exec .rdstat s = .next { s with results := s.results ++ [.byte b] } ∧
      b.getLsbD 0 = decide (s.mode = .running) ∧ b.getLsbD 1 = s.txp ∧ b.getLsbD 2 = s.rxp ∧
      ∀ k, 3 ≤ k → b.getLsbD k = false

/-- R93: RDTXC returns the outgoing cursor in 16 bits, and no state changes (the result is recorded in results, log
entry 6). -/
def Obligations.RdtxcReturnsTheCursor : Prop :=
  ∀ s : State, s.fault = none → exec .rdtxc s = .next { s with results := s.results ++ [.half s.txc] }

/-- R94: RDRXC returns the incoming cursor in 16 bits, and no state changes (the result is recorded in results, log
entry 6). -/
def Obligations.RdrxcReturnsTheCursor : Prop :=
  ∀ s : State, s.fault = none → exec .rdrxc s = .next { s with results := s.results ++ [.half s.rxc] }

/-- R91: ARM, every case: ARM_TWICE in Running, ARM_BEFORE_SEED with a slot unwritten, else MODE becomes Running and
nothing else changes. -/
def Obligations.ArmStartsASeededEngine : Prop :=
  ∀ s : State, s.fault = none →
    (s.mode = .running → exec .arm s = .next { s with fault := some ⟨.armTwice, 0x00000007⟩ }) ∧
    (s.mode = .idle → (∃ i < s.frame.size, s.outBuf.read i = .unwritten) →
      exec .arm s = .next { s with fault := some ⟨.armBeforeSeed, 0x00000007⟩ }) ∧
    (s.mode = .idle → (∀ i < s.frame.size, s.outBuf.read i ≠ .unwritten) →
      exec .arm s = .next { s with mode := .running })

/-! ### The peripheral's events -/

/-- R87: TXRDY, every case, in either mode. -/
def Obligations.TxrdyLatchesTheEvent : Prop :=
  ∀ s : State, s.fault = none →
    (s.txp = true → exec .txrdy s = .next { s with fault := some ⟨.txReassert, 0x00000008⟩ }) ∧
    (s.txp = false → exec .txrdy s = .next { s with txp := true })

/-- R88: RXRDY, every case, in either mode, for every byte. -/
def Obligations.RxrdyLatchesTheByte : Prop :=
  ∀ (data : Byte) (s : State), s.fault = none →
    (s.rxp = true → exec (.rxrdy data) s = .next { s with fault := some ⟨.rxOverrun, encode (.rxrdy data)⟩ }) ∧
    (s.rxp = false → exec (.rxrdy data) s = .next { s with rxp := true, rxd := .written data })

/-! ### The handlers -/

/-- R89: TXH, every case with the cursor in [0, N) (R32): stuck with its guard false, UNWRITTEN_SEND on an unwritten
slot, else the byte is sent, TXP cleared, TXC advanced with its wrap, and nothing else changes. The name of the stuck
outcome is the model's, log entry 5. -/
def Obligations.TxhSendsTheCurrentByte : Prop :=
  ∀ s : State, s.fault = none →
    (¬ (s.mode = .running ∧ s.txp = true) → exec .txh s = .fault .notEnabled) ∧
    (s.mode = .running → s.txp = true → s.txc.toNat < s.frame.size → s.outBuf.read s.txc.toNat = .unwritten →
      exec .txh s = .next { s with fault := some ⟨.unwrittenSend, 0x0000000A⟩ }) ∧
    (∀ b, s.mode = .running → s.txp = true → s.txc.toNat < s.frame.size → s.outBuf.read s.txc.toNat = .written b →
      exec .txh s = .next { s with
        txlog := s.txlog ++ [b], txp := false, txc := if s.txc.toNat + 1 = s.frame.size then 0 else s.txc + 1 })

/-- R90: RXH, with the cursor in [0, N) (R32) and RXD written (R34): stuck with its guard false, else the byte is stored
in IN[RXC], RXD and RXP cleared, RXC advanced with its wrap, and every other slot and part unchanged. The name of the
stuck outcome is the model's, log entry 5. -/
def Obligations.RxhStoresTheReceivedByte : Prop :=
  ∀ s : State, s.fault = none →
    (¬ (s.mode = .running ∧ s.rxp = true) → exec .rxh s = .fault .notEnabled) ∧
    (∀ b, s.mode = .running → s.rxp = true → s.rxc.toNat < s.frame.size → s.rxd = .written b →
      ∃ t, exec .rxh s = .next t ∧ t.inBuf.read s.rxc.toNat = .written b ∧
        (∀ j, j ≠ s.rxc.toNat → t.inBuf.read j = s.inBuf.read j) ∧
        t = { s with
          inBuf := t.inBuf, rxd := .unwritten, rxp := false,
          rxc := if s.rxc.toNat + 1 = s.frame.size then 0 else s.rxc + 1 })

/-- R32, R34, R38, R110: the handlers' two stops in states no run reaches. The model's choice, log entries 7 and 8. -/
def Obligations.HandlersStopOutsideTheInvariant : Prop :=
  ∀ s : State, s.fault = none → s.mode = .running →
    (s.txp = true → s.frame.size ≤ s.txc.toNat → exec .txh s = .fault .cursorOutOfRange) ∧
    (s.rxp = true → s.frame.size ≤ s.rxc.toNat → exec .rxh s = .fault .cursorOutOfRange) ∧
    (s.rxp = true → s.rxc.toNat < s.frame.size → s.rxd = .unwritten → exec .rxh s = .fault .latchUnwritten)

/-! ### RESET -/

/-- R126: RESET puts every slot, cursor, latch and the mode to its reset value, in both modes, and keeps TXLOG and
FAULT. That it keeps the model's own results and script is the model's choice, log entries 2 and 6. -/
def Obligations.ResetRestoresEverything : Prop :=
  ∀ s : State, s.fault = none →
    ∃ t, exec .reset s = .next t ∧ (∀ i, t.outBuf.read i = .unwritten ∧ t.inBuf.read i = .unwritten) ∧
      t = { s with
        outBuf := t.outBuf, inBuf := t.inBuf, txc := 0, rxc := 0, mode := .idle, txp := false, rxp := false,
        rxd := .unwritten }

/-- R127, R128: RESET drops a pending event, and right after it no handler is enabled. The name of the stuck outcome is
the model's, log entry 5. -/
def Obligations.NoHandlerRightAfterReset : Prop :=
  ∀ s t : State, exec .reset s = .next t →
    t.mode = .idle ∧ t.txp = false ∧ t.rxp = false ∧ t.rxd = .unwritten ∧
      exec .txh t = .fault .notEnabled ∧ exec .rxh t = .fault .notEnabled

/-- R36: the reset state, for every N, and what RESET leaves of a state. That RESET keeps the model's own results and
script is the model's choice, log entries 2 and 6. -/
def Obligations.ResetStateIsTheTable : Prop :=
  ∀ n : FrameSize,
    (∀ i, (State.start n).outBuf.read i = .unwritten ∧ (State.start n).inBuf.read i = .unwritten) ∧
    (State.start n).txc = 0 ∧ (State.start n).rxc = 0 ∧ (State.start n).mode = .idle ∧ (State.start n).txp = false ∧
    (State.start n).rxp = false ∧ (State.start n).rxd = .unwritten ∧ (State.start n).txlog = [] ∧
    (State.start n).fault = none ∧
    (∀ s t : State, s.frame = n → exec .reset s = .next t →
      t = { State.start n with txlog := s.txlog, results := s.results, script := s.script })

/-! ### Whole-machine rules -/

/-- R18: ARM alone moves MODE from Idle to Running, RESET alone from Running to Idle. -/
def Obligations.ModeMovesOnlyByArmAndReset : Prop :=
  ∀ (i : Instr) (s t : State), exec i s = .next t →
    (s.mode = .idle → t.mode = .running → i = .arm) ∧ (s.mode = .running → t.mode = .idle → i = .reset)

/-- R28: a TXH step that does not fault appends exactly one byte to the end of TXLOG, and no other label changes it. -/
def Obligations.TxlogGrowsOnlyByTxh : Prop :=
  ∀ (i : Instr) (s t : State), exec i s = .next t →
    (i ≠ .txh → t.txlog = s.txlog) ∧ (i = .txh → t.fault = none → ∃ b, t.txlog = s.txlog ++ [b])

/-- R35: the labels that may change each piece of state. -/
def Obligations.EachPieceHasItsWriters : Prop :=
  ∀ (i : Instr) (s t : State), exec i s = .next t →
    (t.outBuf ≠ s.outBuf → i = .reset ∨ (s.mode = .idle ∧ ∃ idx data, i = .wrout idx data)) ∧
    (t.txc ≠ s.txc → i = .reset ∨ i = .txh) ∧
    (t.inBuf ≠ s.inBuf → i = .reset ∨ i = .rxh) ∧
    (t.rxc ≠ s.rxc → i = .reset ∨ i = .rxh) ∧
    (t.mode ≠ s.mode → i = .reset ∨ i = .arm) ∧
    (s.txp = false → t.txp = true → i = .txrdy) ∧ (s.txp = true → t.txp = false → i = .reset ∨ i = .txh) ∧
    (s.rxp = false → t.rxp = true → ∃ b, i = .rxrdy b) ∧ (s.rxp = true → t.rxp = false → i = .reset ∨ i = .rxh) ∧
    (t.rxd ≠ s.rxd → i = .reset ∨ i = .rxh ∨ ∃ b, i = .rxrdy b)

/-- R8, R81, R120: what each agent's labels leave unchanged, and R6, R31: no label changes N or the choice of labels. The
fields frame, script and results are the model's own, log entries 1, 2 and 6. -/
def Obligations.EachAgentKeepsToItsState : Prop :=
  ∀ (i : Instr) (s t : State), exec i s = .next t →
    (agentOf i = .host →
      t = { s with outBuf := t.outBuf, mode := t.mode, fault := t.fault, results := t.results }) ∧
    (agentOf i = .periph → t = { s with txp := t.txp, rxp := t.rxp, rxd := t.rxd, fault := t.fault }) ∧
    (agentOf i = .engine → t.outBuf = s.outBuf ∧ t.mode = s.mode ∧ t.results = s.results) ∧
    t.frame = s.frame ∧ t.script = s.script

/-- R45: a host read that does not fault gives one result and changes no state; a read that faults records it and gives
none. -/
def Obligations.HostReadsHaveNoSideEffect : Prop :=
  ∀ (i : Instr) (s t : State), ((∃ idx, i = .rdout idx ∨ i = .rdin idx) ∨ i = .rdstat ∨ i = .rdtxc ∨ i = .rdrxc) →
    exec i s = .next t →
    (t.fault = none ∧ ∃ r, t = { s with results := s.results ++ [r] }) ∨
      (∃ c, t = { s with fault := some ⟨c, encode i⟩ })

/-- R46: WROUT repeated leaves the same state, a host read repeated returns the same value, and a second TXRDY or RXRDY
before the handler faults. -/
def Obligations.RepeatedLabels : Prop :=
  ∀ s : State,
    (∀ idx data t, exec (.wrout idx data) s = .next t → t.fault = none → exec (.wrout idx data) t = .next t) ∧
    (∀ i t r, exec i s = .next t → t.results = s.results ++ [r] →
      exec i t = .next { t with results := t.results ++ [r] }) ∧
    (∀ t, exec .txrdy s = .next t → t.fault = none →
      exec .txrdy t = .next { t with fault := some ⟨.txReassert, 0x00000008⟩ }) ∧
    (∀ a b t, exec (.rxrdy a) s = .next t → t.fault = none →
      exec (.rxrdy b) t = .next { t with fault := some ⟨.rxOverrun, encode (.rxrdy b)⟩ })

/-- R30, R95: under the invariant an enabled label is taken, and a label that is not enabled is stuck: TXH and RXH are
enabled exactly when MODE = Running and their event is pending, every other label always, until FAULT is set. The names of the
stuck outcomes are the model's, log entry 5. -/
def Obligations.EnabledLabelsAreTaken : Prop :=
  ∀ (i : Instr) (s : State), s.Inv →
    (enabled i s = true → ∃ t, exec i s = .next t) ∧
    (enabled i s = false → exec i s = .fault .quiescent ∨ exec i s = .fault .notEnabled) ∧
    (enabled i s = true ↔
      s.fault = none ∧ (i = .txh → s.mode = .running ∧ s.txp = true) ∧ (i = .rxh → s.mode = .running ∧ s.rxp = true))

/-- R95: an event pending at ARM stays pending, and its handler becomes enabled at ARM. -/
def Obligations.PendingEventsSurviveArm : Prop :=
  ∀ s t : State, exec .arm s = .next t → t.fault = none →
    t.txp = s.txp ∧ t.rxp = s.rxp ∧ t.rxd = s.rxd ∧ enabled .txh t = s.txp ∧ enabled .rxh t = s.rxp

/-- R52, R96: with both handlers enabled, TXH then RXH reaches the same state as RXH then TXH. -/
def Obligations.HandlersCommute : Prop :=
  ∀ s : State, s.Inv → enabled .txh s = true → enabled .rxh s = true →
    ∃ t₁ t₂ u, exec .txh s = .next t₁ ∧ exec .rxh t₁ = .next u ∧ exec .rxh s = .next t₂ ∧ exec .txh t₂ = .next u

/-- R52, R73, R105: what TXH does depends on the transmit side alone and leaves the receive side, and RXH the other way
round: two states that differ only in the other side have the same effect on this one. -/
def Obligations.DirectionsAreIndependent : Prop :=
  (∀ s₁ s₂ t₁ : State, s₁.txSide = s₂.txSide → s₁.fault = s₂.fault → exec .txh s₁ = .next t₁ →
    ∃ t₂, exec .txh s₂ = .next t₂ ∧ t₂.txSide = t₁.txSide ∧ t₂.fault = t₁.fault ∧ t₂.rxSide = s₂.rxSide) ∧
  (∀ s₁ s₂ t₁ : State, s₁.rxSide = s₂.rxSide → s₁.fault = s₂.fault → exec .rxh s₁ = .next t₁ →
    ∃ t₂, exec .rxh s₂ = .next t₂ ∧ t₂.rxSide = t₁.rxSide ∧ t₂.fault = t₁.fault ∧ t₂.txSide = s₂.txSide)

/-! ### Invariants -/

/-- R32, R33, R34, R37: every step keeps the invariant, from every state that has it. -/
def Obligations.EveryStepKeepsTheInvariant : Prop := ∀ s t : State, s.Inv → step s = .next t → t.Inv

/-- R36: the invariant holds at reset, for every N and every script. -/
def Obligations.ResetHasTheInvariant : Prop :=
  (∀ (n : FrameSize) (ws : List Word), ((State.start n).withScript ws).Inv) ∧ State.reset.Inv

/-- R32: in every reachable state both cursors are below N. -/
def Obligations.CursorsStayBelowN : Prop :=
  ∀ (n : FrameSize) (s : State), Reachable n s → s.txc.toNat < n.size ∧ s.rxc.toNat < n.size

/-- R33: in every reachable state with MODE = Running every slot of OUT is Written. -/
def Obligations.RunningMeansSeeded : Prop :=
  ∀ (n : FrameSize) (s : State), Reachable n s → s.mode = .running → ∀ i < n.size, ∃ b, s.outBuf.read i = .written b

/-- R34: in every reachable state RXP = 1 exactly when RXD is Written. -/
def Obligations.LatchIsWrittenWhenPending : Prop :=
  ∀ (n : FrameSize) (s : State), Reachable n s → (s.rxp = true ↔ ∃ b, s.rxd = .written b)

/-- R113, with R84, R91 and R108: no fault occurs in a run that keeps the contract, and the handlers never fault. That the
contract holds one ARM too is read from R84 and R91, log entry 15. -/
def Obligations.ContractMeansNoFault : Prop :=
  ∀ (n : FrameSize) (s : State), ContractReachable n s →
    s.good ∧ ∀ i t, (i = .txh ∨ i = .rxh) → exec i s = .next t → t.fault = none

/-! ### The buffers' laws -/

/-- R74, R75: advance in range is c + 1 with the one wrap at N, and it stays in range, for every N, N = 1 included. -/
def Obligations.AdvanceWrapsAtN : Prop :=
  ∀ (n : FrameSize) (c : Half), c.toNat < n.size →
    (advance n c).toNat = (if c.toNat + 1 = n.size then 0 else c.toNat + 1) ∧ (advance n c).toNat < n.size

/-- R76: applied k times, advance adds k modulo N; N times is the identity. -/
def Obligations.AdvanceAddsModuloN : Prop :=
  ∀ (n : FrameSize) (c : Half), c.toNat < n.size →
    (∀ k, ((advance n)^[k] c).toNat = (c.toNat + k) % n.size) ∧ (advance n)^[n.size] c = c

/-- R82, R51: after RESET, any run with no further RESET (whatever else is interleaved) that has k RXH steps has stored
the first k bytes offered: RXC = k mod N, and a slot j holds the byte of the largest i < k with i mod N = j, or is
Unwritten when j >= k. -/
def Obligations.ReceiveCaptureLaw : Prop :=
  ∀ (s t : State) (ls : List Instr), runLabels (.reset :: ls) s = some t → t.fault = none → .reset ∉ ls →
    let k := ls.count .rxh
    t.rxc.toNat = k % s.frame.size ∧
    (∀ j < s.frame.size, k ≤ j → t.inBuf.read j = .unwritten) ∧
    (∀ i < k, (∀ i' < k, i' % s.frame.size = i % s.frame.size → i' ≤ i) →
      ∃ b, (offered ls)[i]? = some b ∧ t.inBuf.read (i % s.frame.size) = .written b)

/-- R83, R51: after RESET, any run with no further RESET that has k TXH steps has sent OUT[0 mod N], ...,
OUT[(k-1) mod N] in that order, and TXC = k mod N. -/
def Obligations.TransmitOrderLaw : Prop :=
  ∀ (s t : State) (ls : List Instr), runLabels (.reset :: ls) s = some t → t.fault = none → .reset ∉ ls →
    let k := ls.count .txh
    t.txc.toNat = k % s.frame.size ∧
    ∃ bs, t.txlog = s.txlog ++ bs ∧ bs.length = k ∧
      ∀ j b, bs[j]? = some b → t.outBuf.read (j % s.frame.size) = .written b

/-- R100: with N = 1 every TXH sends OUT[0] and leaves TXC = 0, every RXH overwrites IN[0] and leaves RXC = 0. -/
def Obligations.SingleBytePingPong : Prop :=
  ∀ s : State, s.Inv → s.frame.size = 1 →
    (enabled .txh s = true → ∃ t b, exec .txh s = .next t ∧ s.outBuf.read 0 = .written b ∧
      t.txlog = s.txlog ++ [b] ∧ t.txc = 0) ∧
    (enabled .rxh s = true → ∃ t, exec .rxh s = .next t ∧ t.inBuf.read 0 = s.rxd ∧ t.rxc = 0)

/-! ### Runs -/

/-- R71, R129: from any state without a fault, RESET, SEED of N bytes and ARM run to an armed engine whose OUT holds the
bytes. -/
def Obligations.BootSequenceArms : Prop :=
  ∀ (s : State) (bytes : List Byte), s.fault = none → bytes.length = s.frame.size →
    ∃ t, runLabels (.reset :: seedLabels bytes ++ [.arm]) s = some t ∧
      (∀ i b, bytes[i]? = some b → t.outBuf.read i = .written b) ∧
      t = { s with
        outBuf := t.outBuf, inBuf := [], txc := 0, rxc := 0, mode := .running, txp := false, rxp := false,
        rxd := .unwritten }

/-- R71: on an armed engine with nothing pending, TXEV sends the current byte and RXEV b stores b in the current slot,
each at once, with every other slot and every other part of the state unchanged. -/
def Obligations.PseudoEventsRunAtOnce : Prop :=
  ∀ (s : State) (b : Byte), s.Inv → s.fault = none → s.mode = .running →
    (s.txp = false → ∃ t c, runLabels txev s = some t ∧ s.outBuf.read s.txc.toNat = .written c ∧
      t = { s with txlog := s.txlog ++ [c], txc := t.txc } ∧ t.txc.toNat = (s.txc.toNat + 1) % s.frame.size) ∧
    (s.rxp = false → ∃ t, runLabels (rxev b) s = some t ∧ t.inBuf.read s.rxc.toNat = .written b ∧
      (∀ j, j ≠ s.rxc.toNat → t.inBuf.read j = s.inBuf.read j) ∧
      t = { s with inBuf := t.inBuf, rxc := t.rxc } ∧ t.rxc.toNat = (s.rxc.toNat + 1) % s.frame.size)

/-- R30, R31: stepping through a script of encoded labels is taking the labels in order. The script is the model's own,
log entry 2. -/
def Obligations.ScriptRunsItsLabels : Prop :=
  ∀ (ls : List Instr) (ws : List Word) (s t : State), s.script = ls.map encode ++ ws →
    runLabels ls { s with script := ws } = some t → Host.Core.run core ls.length s = .next t

/-- R98, R99: in an endless run without fault or RESET, from an armed engine with a transmit event pending, AUTO_REPEAT
and weak fairness of TXH make the stream continue: TXLOG grows beyond every bound. The premises are the model's wording,
log entry 11. -/
def Obligations.StreamContinuesUnderAutoRepeat : Prop :=
  ∀ r : EndlessRun, (∀ k, (r.state k).fault = none) → (r.state 0).mode = .running → (r.state 0).txp = true →
    (∀ k, r.label k ≠ .reset) → r.autoRepeat → r.weaklyFair .txh → ∀ m, ∃ k, m ≤ (r.state k).txlog.length

/-! ### The boundary -/

/-- R41: a byte goes over the wire most-significant bit first, the same order read back is the byte, and a sent byte's
bits follow those of the bytes sent before it. The wire's functions are the model's, log entry 12. -/
def Obligations.WireOrderIsMsbFirst : Prop :=
  ∀ b : Byte,
    wireBits b = [b.getLsbD 7, b.getLsbD 6, b.getLsbD 5, b.getLsbD 4, b.getLsbD 3, b.getLsbD 2, b.getLsbD 1,
      b.getLsbD 0] ∧ byteOfWire (wireBits b) = b ∧ ∀ s : State, (s.send b).wireOut = s.wireOut ++ wireBits b

/-- R106: host_rdata holds an 8-bit result in bits 7:0 with bits 15:8 zero, and a 16-bit result as it stands. -/
def Obligations.HostReadDataIsZeroExtended : Prop :=
  ∀ (b : Byte) (h : Half), (rdataOf (.byte b)).toNat = b.toNat ∧ rdataOf (.half h) = h

/-- R69, R71: for every mnemonic, an operand of its form assembles up to 65535 (an index) or 255 (a data byte) and is
refused above, and any other number of operands is refused (SEED takes exactly N); every mnemonic outside the fifteen is
refused. What an error is called, and which is named where two apply, is the model's choice, log entry 13. -/
def Obligations.AssemblerRefusesBadOperands : Prop :=
  ∀ (n : FrameSize) (ops : List Nat),
    (∀ i d, (i ≤ 65535 → d ≤ 255 →
        assemble n "WROUT".toList [i, d] = .ok [.wrout (BitVec.ofNat 16 i) (BitVec.ofNat 8 d)]) ∧
      (65535 < i ∨ 255 < d → assemble n "WROUT".toList [i, d] = .error .operandRange)) ∧
    (∀ i, (i ≤ 65535 → assemble n "RDOUT".toList [i] = .ok [.rdout (BitVec.ofNat 16 i)] ∧
        assemble n "RDIN".toList [i] = .ok [.rdin (BitVec.ofNat 16 i)]) ∧
      (65535 < i → assemble n "RDOUT".toList [i] = .error .operandRange ∧
        assemble n "RDIN".toList [i] = .error .operandRange)) ∧
    (∀ d, (d ≤ 255 → assemble n "RXRDY".toList [d] = .ok [.rxrdy (BitVec.ofNat 8 d)] ∧
        assemble n "RXEV".toList [d] = .ok [.rxrdy (BitVec.ofNat 8 d), .rxh]) ∧
      (255 < d → assemble n "RXRDY".toList [d] = .error .operandRange ∧
        assemble n "RXEV".toList [d] = .error .operandRange)) ∧
    (ops.length = n.size → (∀ d ∈ ops, d ≤ 255) →
      ∃ ls : List Instr, assemble n "SEED".toList ops = .ok ls ∧ ls.length = n.size ∧ ∀ k d, ops[k]? = some d →
        ls[k]? = some (Instr.wrout (BitVec.ofNat 16 k) (BitVec.ofNat 8 d))) ∧
    (ops.length = n.size → (∃ d ∈ ops, 255 < d) → assemble n "SEED".toList ops = .error .operandRange) ∧
    (∀ p ∈ [("RDSTAT", [Instr.rdstat]), ("RDTXC", [.rdtxc]), ("RDRXC", [.rdrxc]), ("ARM", [.arm]), ("TXRDY", [.txrdy]),
        ("TXH", [.txh]), ("RXH", [.rxh]), ("RESET", [.reset]), ("TXEV", [.txrdy, .txh])],
      assemble n p.1.toList [] = .ok p.2 ∧ (ops.length ≠ 0 → assemble n p.1.toList ops = .error .operandCount)) ∧
    (ops.length ≠ 1 → ∀ m ∈ ["RDOUT", "RDIN", "RXRDY", "RXEV"], assemble n m.toList ops = .error .operandCount) ∧
    (ops.length ≠ 2 → assemble n "WROUT".toList ops = .error .operandCount) ∧
    (ops.length ≠ n.size → assemble n "SEED".toList ops = .error .operandCount) ∧
    ∀ m : String, m ∉ ["WROUT", "RDOUT", "RDIN", "RDSTAT", "RDTXC", "RDRXC", "ARM", "TXRDY", "RXRDY", "TXH", "RXH",
        "RESET", "SEED", "TXEV", "RXEV"] →
      assemble n m.toList ops = .error .unknownMnemonic
end

