-- ==== Sys2Proof/Laws/Ops.lean ====
section
/-!
SUPPORT. One lemma per shared operation that says what its next state can be, and one that says what it does when its
test passes.
-/

namespace Sys2Proof.Machine

@[simp] theorem whenLive_live {s : State} (h : s.fault = none) (k : StepResult) : whenLive s k = k := by
  simp [whenLive, h]

theorem whenLive_faulted {s : State} (h : s.fault ≠ none) (k : StepResult) : whenLive s k = .fault .quiescent := by
  cases hf : s.fault with
  | none => exact absurd hf h
  | some r => simp [whenLive, hf]

theorem whenLive_next {s t : State} {k : StepResult} (h : whenLive s k = .next t) : s.fault = none ∧ k = .next t := by
  by_cases hf : s.fault = none
  · exact ⟨hf, by rwa [whenLive_live hf] at h⟩
  · rw [whenLive_faulted hf] at h
    cases h

theorem raise_next {c : FaultCode} {w : Word} {s t : State} (h : raise c w s = .next t) : t = s.record c w := by
  cases h
  rfl

theorem hostReturn_next {r : HostResult} {s t : State} (h : hostReturn r s = .next t) : t = s.answer r := by
  cases h
  rfl

@[simp] theorem withIndex_inside {idx : Half} {w : Word} {s : State} (h : idx.toNat < s.frame.size) (k : StepResult) :
    withIndex idx w s k = k := if_pos h

theorem withIndex_next {idx : Half} {w : Word} {s t : State} {k : StepResult} (h : withIndex idx w s k = .next t) :
    (idx.toNat < s.frame.size ∧ k = .next t) ∨ (s.frame.size ≤ idx.toNat ∧ t = s.record .indexRange w) := by
  unfold withIndex at h
  split at h
  · exact .inl ⟨‹_›, h⟩
  · exact .inr ⟨Nat.le_of_not_lt ‹_›, raise_next h⟩

@[simp] theorem withCursor_inside {c : Half} {s : State} (h : c.toNat < s.frame.size) (k : StepResult) :
    withCursor c s k = k := if_pos h

theorem withCursor_next {c : Half} {s t : State} {k : StepResult} (h : withCursor c s k = .next t) :
    c.toNat < s.frame.size ∧ k = .next t := by
  unfold withCursor at h
  split at h
  · exact ⟨‹_›, h⟩
  · cases h

@[simp] theorem withByte_written (b : Byte) (code : FaultCode) (w : Word) (s : State) (k : Byte → StepResult) :
    withByte (.written b) code w s k = k b := rfl

@[simp] theorem withByte_unwritten (code : FaultCode) (w : Word) (s : State) (k : Byte → StepResult) :
    withByte .unwritten code w s k = raise code w s := rfl

theorem withByte_next {c : Cell} {code : FaultCode} {w : Word} {s t : State} {k : Byte → StepResult}
    (h : withByte c code w s k = .next t) :
    (∃ b, c = .written b ∧ k b = .next t) ∨ (c = .unwritten ∧ t = s.record code w) := by
  cases c with
  | written b => exact .inl ⟨b, rfl, h⟩
  | unwritten => exact .inr ⟨rfl, raise_next h⟩

theorem withLatch_written {s : State} {b : Byte} (h : s.rxd = .written b) (k : Byte → StepResult) :
    withLatch s k = k b := by
  simp [withLatch, h]

theorem withLatch_next {s t : State} {k : Byte → StepResult} (h : withLatch s k = .next t) :
    ∃ b, s.rxd = .written b ∧ k b = .next t := by
  cases hd : s.rxd with
  | written b => exact ⟨b, rfl, by rwa [withLatch_written hd] at h⟩
  | unwritten => simp [withLatch, hd] at h

@[simp] theorem whenEnabled_true (k : StepResult) : whenEnabled true k = k := rfl

theorem whenEnabled_next {g : Bool} {t : State} {k : StepResult} (h : whenEnabled g k = .next t) :
    g = true ∧ k = .next t := by
  cases g with
  | true => exact ⟨rfl, h⟩
  | false => cases h

theorem State.runBit_iff (s : State) : s.runBit = true ↔ s.mode = .running := by
  cases h : s.mode <;> simp [State.runBit, h]

theorem State.txhGuard_iff (s : State) : s.txhGuard = true ↔ s.mode = .running ∧ s.txp = true := by
  simp [State.txhGuard, State.runBit_iff]

theorem State.rxhGuard_iff (s : State) : s.rxhGuard = true ↔ s.mode = .running ∧ s.rxp = true := by
  simp [State.rxhGuard, State.runBit_iff]

/-- The cursor step as a number (R74), under its precondition. -/
theorem advance_toNat {n : FrameSize} {c : Half} (h : c.toNat < n.size) :
    (advance n c).toNat = if c.toNat + 1 = n.size then 0 else c.toNat + 1 := by
  have := n.le
  unfold advance
  split
  · rfl
  · rw [BitVec.toNat_ofNat]
    omega

end Sys2Proof.Machine
end

