-- ==== Sys2Proof/Laws/Meanings.lean ====
section
/-!
SUPPORT. Everything a label can do: for each meaning, what its next state can be. Whole-machine rules are proved from
these, without unfolding a meaning again.
-/

namespace Sys2Proof.Machine

theorem execWrout_next {idx : Half} {data : Byte} {s t : State} (h : execWrout idx data s = .next t) :
    s.fault = none ∧
      ((s.frame.size ≤ idx.toNat ∧ t = s.record .indexRange (encode (.wrout idx data))) ∨
       (idx.toNat < s.frame.size ∧ s.mode = .running ∧ t = s.record .seedWhileRunning (encode (.wrout idx data))) ∨
       (idx.toNat < s.frame.size ∧ s.mode = .idle ∧ t = s.writeOut idx.toNat data)) := by
  obtain ⟨hl, h⟩ := whenLive_next h
  refine ⟨hl, ?_⟩
  rcases withIndex_next h with ⟨hi, h⟩ | ⟨hi, h⟩
  · cases hm : s.mode with
    | running =>
      rw [hm] at h
      exact .inr (.inl ⟨hi, rfl, raise_next h⟩)
    | idle =>
      rw [hm] at h
      cases h
      exact .inr (.inr ⟨hi, rfl, rfl⟩)
  · exact .inl ⟨hi, h⟩

theorem execRdout_next {idx : Half} {s t : State} (h : execRdout idx s = .next t) :
    s.fault = none ∧
      ((s.frame.size ≤ idx.toNat ∧ t = s.record .indexRange (encode (.rdout idx))) ∨
       (idx.toNat < s.frame.size ∧ s.outBuf.read idx.toNat = .unwritten ∧
          t = s.record .unwrittenRead (encode (.rdout idx))) ∨
       (idx.toNat < s.frame.size ∧ ∃ b, s.outBuf.read idx.toNat = .written b ∧ t = s.answer (.byte b))) := by
  obtain ⟨hl, h⟩ := whenLive_next h
  refine ⟨hl, ?_⟩
  rcases withIndex_next h with ⟨hi, h⟩ | ⟨hi, h⟩
  · rcases withByte_next h with ⟨b, hc, h⟩ | ⟨hc, h⟩
    · exact .inr (.inr ⟨hi, b, hc, hostReturn_next h⟩)
    · exact .inr (.inl ⟨hi, hc, h⟩)
  · exact .inl ⟨hi, h⟩

theorem execRdin_next {idx : Half} {s t : State} (h : execRdin idx s = .next t) :
    s.fault = none ∧
      ((s.frame.size ≤ idx.toNat ∧ t = s.record .indexRange (encode (.rdin idx))) ∨
       (idx.toNat < s.frame.size ∧ s.inBuf.read idx.toNat = .unwritten ∧
          t = s.record .unwrittenRead (encode (.rdin idx))) ∨
       (idx.toNat < s.frame.size ∧ ∃ b, s.inBuf.read idx.toNat = .written b ∧ t = s.answer (.byte b))) := by
  obtain ⟨hl, h⟩ := whenLive_next h
  refine ⟨hl, ?_⟩
  rcases withIndex_next h with ⟨hi, h⟩ | ⟨hi, h⟩
  · rcases withByte_next h with ⟨b, hc, h⟩ | ⟨hc, h⟩
    · exact .inr (.inr ⟨hi, b, hc, hostReturn_next h⟩)
    · exact .inr (.inl ⟨hi, hc, h⟩)
  · exact .inl ⟨hi, h⟩

theorem execRdstat_next {s t : State} (h : execRdstat s = .next t) :
    s.fault = none ∧ t = s.answer (.byte s.statusByte) :=
  (whenLive_next h).imp id hostReturn_next

theorem execRdtxc_next {s t : State} (h : execRdtxc s = .next t) : s.fault = none ∧ t = s.answer (.half s.txCur) :=
  (whenLive_next h).imp id hostReturn_next

theorem execRdrxc_next {s t : State} (h : execRdrxc s = .next t) : s.fault = none ∧ t = s.answer (.half s.rxCur) :=
  (whenLive_next h).imp id hostReturn_next

theorem execArm_next {s t : State} (h : execArm s = .next t) :
    s.fault = none ∧
      ((s.mode = .running ∧ t = s.record .armTwice (encode .arm)) ∨
       (s.mode = .idle ∧ s.outBuf.allWritten s.frame.size = false ∧ t = s.record .armBeforeSeed (encode .arm)) ∨
       (s.mode = .idle ∧ s.outBuf.allWritten s.frame.size = true ∧ t = s.enableEvents)) := by
  obtain ⟨hl, h⟩ := whenLive_next h
  refine ⟨hl, ?_⟩
  cases hm : s.mode with
  | running =>
    rw [hm] at h
    exact .inl ⟨rfl, raise_next h⟩
  | idle =>
    simp only [hm] at h
    split at h
    · cases h
      exact .inr (.inr ⟨rfl, ‹_›, rfl⟩)
    · exact .inr (.inl ⟨rfl, Bool.eq_false_iff.mpr ‹_›, raise_next h⟩)

theorem execTxrdy_next {s t : State} (h : execTxrdy s = .next t) :
    s.fault = none ∧
      ((s.txp = true ∧ t = s.record .txReassert (encode .txrdy)) ∨ (s.txp = false ∧ t = s.latchTx)) := by
  obtain ⟨hl, h⟩ := whenLive_next h
  refine ⟨hl, ?_⟩
  split at h
  · exact .inl ⟨‹_›, raise_next h⟩
  · cases h
    exact .inr ⟨Bool.eq_false_iff.mpr ‹_›, rfl⟩

theorem execRxrdy_next {data : Byte} {s t : State} (h : execRxrdy data s = .next t) :
    s.fault = none ∧
      ((s.rxp = true ∧ t = s.record .rxOverrun (encode (.rxrdy data))) ∨ (s.rxp = false ∧ t = s.latchRx data)) := by
  obtain ⟨hl, h⟩ := whenLive_next h
  refine ⟨hl, ?_⟩
  split at h
  · exact .inl ⟨‹_›, raise_next h⟩
  · cases h
    exact .inr ⟨Bool.eq_false_iff.mpr ‹_›, rfl⟩

theorem execTxh_next {s t : State} (h : execTxh s = .next t) :
    s.fault = none ∧ s.mode = .running ∧ s.txp = true ∧ s.txc.toNat < s.frame.size ∧
      ((s.currentOut = .unwritten ∧ t = s.record .unwrittenSend (encode .txh)) ∨
       (∃ b, s.currentOut = .written b ∧ t = (s.send b).ackTx.advanceTx)) := by
  obtain ⟨hl, h⟩ := whenLive_next h
  obtain ⟨hg, h⟩ := whenEnabled_next h
  obtain ⟨hc, h⟩ := withCursor_next h
  obtain ⟨hm, hp⟩ := s.txhGuard_iff.mp hg
  refine ⟨hl, hm, hp, hc, ?_⟩
  rcases withByte_next h with ⟨b, hb, h⟩ | ⟨hb, h⟩
  · cases h
    exact .inr ⟨b, hb, rfl⟩
  · exact .inl ⟨hb, h⟩

theorem execRxh_next {s t : State} (h : execRxh s = .next t) :
    s.fault = none ∧ s.mode = .running ∧ s.rxp = true ∧ s.rxc.toNat < s.frame.size ∧
      ∃ b, s.rxd = .written b ∧ t = (s.currentIn b).ackRx.advanceRx := by
  obtain ⟨hl, h⟩ := whenLive_next h
  obtain ⟨hg, h⟩ := whenEnabled_next h
  obtain ⟨hc, h⟩ := withCursor_next h
  obtain ⟨hm, hp⟩ := s.rxhGuard_iff.mp hg
  obtain ⟨b, hb, h⟩ := withLatch_next h
  cases h
  exact ⟨hl, hm, hp, hc, b, hb, rfl⟩

theorem execReset_next {s t : State} (h : execReset s = .next t) : s.fault = none ∧ t = s.clear := by
  obtain ⟨hl, h⟩ := whenLive_next h
  cases h
  exact ⟨hl, rfl⟩

/-- What a label does in s when it is taken without a fault, with the tests it has passed. -/
def Effect (i : Instr) (s t : State) : Prop :=
  match i with
  | .wrout idx data => idx.toNat < s.frame.size ∧ s.mode = .idle ∧ t = s.writeOut idx.toNat data
  | .rdout idx      => idx.toNat < s.frame.size ∧ ∃ b, s.outBuf.read idx.toNat = .written b ∧ t = s.answer (.byte b)
  | .rdin idx       => idx.toNat < s.frame.size ∧ ∃ b, s.inBuf.read idx.toNat = .written b ∧ t = s.answer (.byte b)
  | .rdstat         => t = s.answer (.byte s.statusByte)
  | .rdtxc          => t = s.answer (.half s.txCur)
  | .rdrxc          => t = s.answer (.half s.rxCur)
  | .arm            => s.mode = .idle ∧ s.outBuf.allWritten s.frame.size = true ∧ t = s.enableEvents
  | .txrdy          => s.txp = false ∧ t = s.latchTx
  | .rxrdy data     => s.rxp = false ∧ t = s.latchRx data
  | .txh            =>
    s.mode = .running ∧ s.txp = true ∧ s.txc.toNat < s.frame.size ∧
      ∃ b, s.currentOut = .written b ∧ t = (s.send b).ackTx.advanceTx
  | .rxh            =>
    s.mode = .running ∧ s.rxp = true ∧ s.rxc.toNat < s.frame.size ∧
      ∃ b, s.rxd = .written b ∧ t = (s.currentIn b).ackRx.advanceRx
  | .reset          => t = s.clear

/-- Everything a label can do: it records a fault with its own word, or it has its effect. -/
theorem exec_next {i : Instr} {s t : State} (h : exec i s = .next t) :
    s.fault = none ∧ ((∃ c, t = s.record c (encode i)) ∨ Effect i s t) := by
  cases i with
  | wrout idx data =>
    obtain ⟨hl, h | h | h⟩ := execWrout_next h
    · exact ⟨hl, .inl ⟨_, h.2⟩⟩
    · exact ⟨hl, .inl ⟨_, h.2.2⟩⟩
    · exact ⟨hl, .inr h⟩
  | rdout idx =>
    obtain ⟨hl, h | h | h⟩ := execRdout_next h
    · exact ⟨hl, .inl ⟨_, h.2⟩⟩
    · exact ⟨hl, .inl ⟨_, h.2.2⟩⟩
    · exact ⟨hl, .inr h⟩
  | rdin idx =>
    obtain ⟨hl, h | h | h⟩ := execRdin_next h
    · exact ⟨hl, .inl ⟨_, h.2⟩⟩
    · exact ⟨hl, .inl ⟨_, h.2.2⟩⟩
    · exact ⟨hl, .inr h⟩
  | rdstat => exact (execRdstat_next h).imp id .inr
  | rdtxc => exact (execRdtxc_next h).imp id .inr
  | rdrxc => exact (execRdrxc_next h).imp id .inr
  | arm =>
    obtain ⟨hl, h | h | h⟩ := execArm_next h
    · exact ⟨hl, .inl ⟨_, h.2⟩⟩
    · exact ⟨hl, .inl ⟨_, h.2.2⟩⟩
    · exact ⟨hl, .inr h⟩
  | txrdy =>
    obtain ⟨hl, h | h⟩ := execTxrdy_next h
    · exact ⟨hl, .inl ⟨_, h.2⟩⟩
    · exact ⟨hl, .inr h⟩
  | rxrdy data =>
    obtain ⟨hl, h | h⟩ := execRxrdy_next h
    · exact ⟨hl, .inl ⟨_, h.2⟩⟩
    · exact ⟨hl, .inr h⟩
  | txh =>
    obtain ⟨hl, hm, hp, hc, h | h⟩ := execTxh_next h
    · exact ⟨hl, .inl ⟨_, h.2⟩⟩
    · exact ⟨hl, .inr ⟨hm, hp, hc, h⟩⟩
  | rxh =>
    obtain ⟨hl, h⟩ := execRxh_next h
    exact ⟨hl, .inr h⟩
  | reset => exact (execReset_next h).imp id .inr

theorem takeWord_next {w : Word} {s t : State} (h : takeWord w s = .next t) :
    s.fault = none ∧
      ((∃ i, decode w = .ok i ∧ exec i s = .next t) ∨ (∃ e, decode w = .error e ∧ t = s.record (decodeCode e) w)) := by
  obtain ⟨hl, h⟩ := whenLive_next h
  refine ⟨hl, ?_⟩
  cases hd : decode w with
  | ok i =>
    rw [hd] at h
    exact .inl ⟨i, rfl, h⟩
  | error e =>
    rw [hd] at h
    exact .inr ⟨e, rfl, raise_next h⟩

theorem step_next {s t : State} (h : step s = .next t) :
    s.fault = none ∧
      ((s.script = [] ∧ t = s) ∨ (∃ w ws, s.script = w :: ws ∧ takeWord w (s.withScript ws) = .next t)) := by
  unfold step at h
  split at h
  · obtain ⟨hl, h⟩ := whenLive_next h
    cases h
    exact ⟨hl, .inl ⟨‹_›, rfl⟩⟩
  · have hf := (whenLive_next h).1
    exact ⟨hf, .inr ⟨_, _, ‹_›, h⟩⟩

end Sys2Proof.Machine
end

