-- ==== Sys2Proof/Laws/Memory.lean ====
section
/-!
SUPPORT. The laws of a space: a read after a write, and that a write keeps the canonical form and the space's bound.
-/

namespace Sys2Proof.Machine

@[simp] theorem Memory.read_nil (i : Nat) : Memory.read [] i = .unwritten := rfl

theorem Memory.read_write_same (m : Memory) (i : Nat) (v : Byte) : (m.write i v).read i = .written v := by
  induction m with
  | nil => simp [Memory.write, Memory.read]
  | cons p rest ih =>
    obtain ⟨a, b⟩ := p
    simp only [Memory.write]
    split
    · simp [Memory.read]
    · split
      · simp [Memory.read]
      · rename_i _ hne
        simp [Memory.read, ih, Ne.symm hne]

theorem Memory.read_write_other (m : Memory) {i j : Nat} (v : Byte) (h : j ≠ i) : (m.write i v).read j = m.read j := by
  induction m with
  | nil => simp [Memory.write, Memory.read, h.symm]
  | cons p rest ih =>
    obtain ⟨a, b⟩ := p
    simp only [Memory.write]
    split
    · simp [Memory.read, h.symm]
    · split
      · rename_i _ he
        subst he
        simp [Memory.read, h.symm]
      · simp only [Memory.read, ih]

theorem Memory.read_write (m : Memory) (i j : Nat) (v : Byte) :
    (m.write i v).read j = if j = i then .written v else m.read j := by
  split
  · rename_i h
    rw [h, Memory.read_write_same]
  · rename_i h
    exact Memory.read_write_other m v h

theorem Memory.mem_write {m : Memory} {i : Nat} {v : Byte} {p : Host.Cell} (h : p ∈ m.write i v) : p = (i, v) ∨ p ∈ m := by
  induction m with
  | nil => simpa [Memory.write] using h
  | cons q rest ih =>
    obtain ⟨a, b⟩ := q
    simp only [Memory.write] at h
    split at h
    · simpa using h
    · split at h
      · rcases List.mem_cons.mp h with h | h
        · exact .inl h
        · exact .inr (List.mem_cons_of_mem _ h)
      · rcases List.mem_cons.mp h with h | h
        · exact .inr (by simp [h])
        · exact (ih h).imp id (List.mem_cons_of_mem _)

theorem Memory.write_wf {m : Memory} (h : m.wf) (i : Nat) (v : Byte) : (m.write i v).wf := by
  induction m with
  | nil => simp [Memory.wf, Memory.write]
  | cons q rest ih =>
    obtain ⟨a, b⟩ := q
    obtain ⟨hlt, hrest⟩ := List.pairwise_cons.mp h
    simp only [Memory.write]
    split
    · rename_i hia
      refine List.pairwise_cons.mpr ⟨fun p hp => ?_, h⟩
      rcases List.mem_cons.mp hp with hp | hp
      · simpa [hp] using hia
      · exact Nat.lt_trans hia (hlt p hp)
    · split
      · rename_i _ hia
        exact List.pairwise_cons.mpr ⟨fun p hp => hia ▸ hlt p hp, hrest⟩
      · rename_i hge hne
        refine List.pairwise_cons.mpr ⟨fun p hp => ?_, ih hrest⟩
        rcases Memory.mem_write hp with hp | hp
        · simp only [hp]
          omega
        · exact hlt p hp

theorem Memory.write_within {m : Memory} {n i : Nat} (h : m.within n) (hi : i < n) (v : Byte) : (m.write i v).within n :=
  fun _ hp => (Memory.mem_write hp).elim (fun e => e ▸ hi) (h _)

theorem Memory.allWritten_iff (m : Memory) (n : Nat) : m.allWritten n = true ↔ ∀ i < n, m.read i ≠ .unwritten := by
  induction n with
  | zero => simp [Memory.allWritten]
  | succ n ih =>
    have hc : (m.read n).isWritten = true ↔ m.read n ≠ .unwritten := by cases m.read n <;> simp [Cell.isWritten]
    rw [Memory.allWritten, Bool.and_eq_true, ih, hc]
    constructor
    · rintro ⟨h, hr⟩ i hi
      rcases Nat.lt_succ_iff_lt_or_eq.mp hi with hi | rfl
      · exact hr i hi
      · exact h
    · exact fun h => ⟨h n (Nat.lt_succ_self n), fun i hi => h i (Nat.lt_succ_of_lt hi)⟩

theorem Memory.read_unwritten_of_within {m : Memory} {n i : Nat} (h : m.within n) (hi : n ≤ i) : m.read i = .unwritten := by
  induction m with
  | nil => rfl
  | cons q rest ih =>
    obtain ⟨a, b⟩ := q
    have ha : a < n := h (a, b) (by simp)
    rw [Memory.read, if_neg (by omega)]
    exact ih fun p hp => h p (List.mem_cons_of_mem _ hp)

end Sys2Proof.Machine
end

