-- ==== Sys2Proof/Laws/PerInstr.lean ====
section
/-!
SUPPORT. Per-label laws of the syntax: the word a label encodes to is well-formed (30_encoding.md R63), one lemma per
constructor.
-/

namespace Sys2Proof.Laws

/-- The fields of the encoded word are the label's own, and well-formed. -/
def WordForm.Statement (i : Instr) : Prop := fieldsOf (encode i) = i.fields ∧ i.wellFormed = true

theorem fieldsOf_packWord (idx : Half) (data : Byte) (op : BitVec 4) :
    fieldsOf (packWord idx data op) = ⟨idx, 0, data, op⟩ := by
  simp only [fieldsOf, fieldIdx, fieldRsv, fieldData, fieldOp, packWord, Fields.mk.injEq]
  refine ⟨?_, ?_, ?_, ?_⟩ <;>
    · ext i hi
      interval_cases i <;> simp

theorem WordForm.wrout (idx : Half) (data : Byte) : WordForm.Statement (.wrout idx data) :=
  ⟨fieldsOf_packWord _ _ _, by simp [Instr.wellFormed, Instr.fields, Fields.wellFormed, Fields.opLegal, Fields.rsvZero,
    Fields.dataAllowed, Fields.idxAllowed]⟩

theorem WordForm.rdout (idx : Half) : WordForm.Statement (.rdout idx) :=
  ⟨fieldsOf_packWord _ _ _, by simp [Instr.wellFormed, Instr.fields, Fields.wellFormed, Fields.opLegal, Fields.rsvZero,
    Fields.dataAllowed, Fields.idxAllowed]⟩

theorem WordForm.rdin (idx : Half) : WordForm.Statement (.rdin idx) :=
  ⟨fieldsOf_packWord _ _ _, by simp [Instr.wellFormed, Instr.fields, Fields.wellFormed, Fields.opLegal, Fields.rsvZero,
    Fields.dataAllowed, Fields.idxAllowed]⟩

theorem WordForm.rxrdy (data : Byte) : WordForm.Statement (.rxrdy data) :=
  ⟨fieldsOf_packWord _ _ _, by simp [Instr.wellFormed, Instr.fields, Fields.wellFormed, Fields.opLegal, Fields.rsvZero,
    Fields.dataAllowed, Fields.idxAllowed]⟩

theorem WordForm.rdstat : WordForm.Statement .rdstat := ⟨fieldsOf_packWord _ _ _, by decide⟩

theorem WordForm.rdtxc : WordForm.Statement .rdtxc := ⟨fieldsOf_packWord _ _ _, by decide⟩

theorem WordForm.rdrxc : WordForm.Statement .rdrxc := ⟨fieldsOf_packWord _ _ _, by decide⟩

theorem WordForm.arm : WordForm.Statement .arm := ⟨fieldsOf_packWord _ _ _, by decide⟩

theorem WordForm.txrdy : WordForm.Statement .txrdy := ⟨fieldsOf_packWord _ _ _, by decide⟩

theorem WordForm.txh : WordForm.Statement .txh := ⟨fieldsOf_packWord _ _ _, by decide⟩

theorem WordForm.rxh : WordForm.Statement .rxh := ⟨fieldsOf_packWord _ _ _, by decide⟩

theorem WordForm.reset : WordForm.Statement .reset := ⟨fieldsOf_packWord _ _ _, by decide⟩

end Sys2Proof.Laws
end

