-- ==== Sys2Proof/Laws/State.lean ====
section
/-!
SUPPORT. What each named update of the state leaves in each field: one lemma per field per update.
-/

namespace Sys2Proof.Machine

@[simp] theorem State.writeOut_outBuf (i : Nat) (b : Byte) (s : State) : (s.writeOut i b).outBuf = s.outBuf.write i b := rfl
@[simp] theorem State.writeOut_inBuf (i : Nat) (b : Byte) (s : State) : (s.writeOut i b).inBuf = s.inBuf := rfl
@[simp] theorem State.writeOut_txc (i : Nat) (b : Byte) (s : State) : (s.writeOut i b).txc = s.txc := rfl
@[simp] theorem State.writeOut_rxc (i : Nat) (b : Byte) (s : State) : (s.writeOut i b).rxc = s.rxc := rfl
@[simp] theorem State.writeOut_mode (i : Nat) (b : Byte) (s : State) : (s.writeOut i b).mode = s.mode := rfl
@[simp] theorem State.writeOut_txp (i : Nat) (b : Byte) (s : State) : (s.writeOut i b).txp = s.txp := rfl
@[simp] theorem State.writeOut_rxp (i : Nat) (b : Byte) (s : State) : (s.writeOut i b).rxp = s.rxp := rfl
@[simp] theorem State.writeOut_rxd (i : Nat) (b : Byte) (s : State) : (s.writeOut i b).rxd = s.rxd := rfl
@[simp] theorem State.writeOut_txlog (i : Nat) (b : Byte) (s : State) : (s.writeOut i b).txlog = s.txlog := rfl
@[simp] theorem State.writeOut_fault (i : Nat) (b : Byte) (s : State) : (s.writeOut i b).fault = s.fault := rfl
@[simp] theorem State.writeOut_frame (i : Nat) (b : Byte) (s : State) : (s.writeOut i b).frame = s.frame := rfl
@[simp] theorem State.writeOut_results (i : Nat) (b : Byte) (s : State) : (s.writeOut i b).results = s.results := rfl
@[simp] theorem State.writeOut_script (i : Nat) (b : Byte) (s : State) : (s.writeOut i b).script = s.script := rfl

@[simp] theorem State.writeIn_outBuf (i : Nat) (b : Byte) (s : State) : (s.writeIn i b).outBuf = s.outBuf := rfl
@[simp] theorem State.writeIn_inBuf (i : Nat) (b : Byte) (s : State) : (s.writeIn i b).inBuf = s.inBuf.write i b := rfl
@[simp] theorem State.writeIn_txc (i : Nat) (b : Byte) (s : State) : (s.writeIn i b).txc = s.txc := rfl
@[simp] theorem State.writeIn_rxc (i : Nat) (b : Byte) (s : State) : (s.writeIn i b).rxc = s.rxc := rfl
@[simp] theorem State.writeIn_mode (i : Nat) (b : Byte) (s : State) : (s.writeIn i b).mode = s.mode := rfl
@[simp] theorem State.writeIn_txp (i : Nat) (b : Byte) (s : State) : (s.writeIn i b).txp = s.txp := rfl
@[simp] theorem State.writeIn_rxp (i : Nat) (b : Byte) (s : State) : (s.writeIn i b).rxp = s.rxp := rfl
@[simp] theorem State.writeIn_rxd (i : Nat) (b : Byte) (s : State) : (s.writeIn i b).rxd = s.rxd := rfl
@[simp] theorem State.writeIn_txlog (i : Nat) (b : Byte) (s : State) : (s.writeIn i b).txlog = s.txlog := rfl
@[simp] theorem State.writeIn_fault (i : Nat) (b : Byte) (s : State) : (s.writeIn i b).fault = s.fault := rfl
@[simp] theorem State.writeIn_frame (i : Nat) (b : Byte) (s : State) : (s.writeIn i b).frame = s.frame := rfl
@[simp] theorem State.writeIn_results (i : Nat) (b : Byte) (s : State) : (s.writeIn i b).results = s.results := rfl
@[simp] theorem State.writeIn_script (i : Nat) (b : Byte) (s : State) : (s.writeIn i b).script = s.script := rfl

@[simp] theorem State.currentIn_outBuf (b : Byte) (s : State) : (s.currentIn b).outBuf = s.outBuf := rfl
@[simp] theorem State.currentIn_inBuf (b : Byte) (s : State) : (s.currentIn b).inBuf = s.inBuf.write s.rxc.toNat b := rfl
@[simp] theorem State.currentIn_txc (b : Byte) (s : State) : (s.currentIn b).txc = s.txc := rfl
@[simp] theorem State.currentIn_rxc (b : Byte) (s : State) : (s.currentIn b).rxc = s.rxc := rfl
@[simp] theorem State.currentIn_mode (b : Byte) (s : State) : (s.currentIn b).mode = s.mode := rfl
@[simp] theorem State.currentIn_txp (b : Byte) (s : State) : (s.currentIn b).txp = s.txp := rfl
@[simp] theorem State.currentIn_rxp (b : Byte) (s : State) : (s.currentIn b).rxp = s.rxp := rfl
@[simp] theorem State.currentIn_rxd (b : Byte) (s : State) : (s.currentIn b).rxd = s.rxd := rfl
@[simp] theorem State.currentIn_txlog (b : Byte) (s : State) : (s.currentIn b).txlog = s.txlog := rfl
@[simp] theorem State.currentIn_fault (b : Byte) (s : State) : (s.currentIn b).fault = s.fault := rfl
@[simp] theorem State.currentIn_frame (b : Byte) (s : State) : (s.currentIn b).frame = s.frame := rfl
@[simp] theorem State.currentIn_results (b : Byte) (s : State) : (s.currentIn b).results = s.results := rfl
@[simp] theorem State.currentIn_script (b : Byte) (s : State) : (s.currentIn b).script = s.script := rfl

@[simp] theorem State.send_outBuf (b : Byte) (s : State) : (s.send b).outBuf = s.outBuf := rfl
@[simp] theorem State.send_inBuf (b : Byte) (s : State) : (s.send b).inBuf = s.inBuf := rfl
@[simp] theorem State.send_txc (b : Byte) (s : State) : (s.send b).txc = s.txc := rfl
@[simp] theorem State.send_rxc (b : Byte) (s : State) : (s.send b).rxc = s.rxc := rfl
@[simp] theorem State.send_mode (b : Byte) (s : State) : (s.send b).mode = s.mode := rfl
@[simp] theorem State.send_txp (b : Byte) (s : State) : (s.send b).txp = s.txp := rfl
@[simp] theorem State.send_rxp (b : Byte) (s : State) : (s.send b).rxp = s.rxp := rfl
@[simp] theorem State.send_rxd (b : Byte) (s : State) : (s.send b).rxd = s.rxd := rfl
@[simp] theorem State.send_txlog (b : Byte) (s : State) : (s.send b).txlog = s.txlog ++ [b] := rfl
@[simp] theorem State.send_fault (b : Byte) (s : State) : (s.send b).fault = s.fault := rfl
@[simp] theorem State.send_frame (b : Byte) (s : State) : (s.send b).frame = s.frame := rfl
@[simp] theorem State.send_results (b : Byte) (s : State) : (s.send b).results = s.results := rfl
@[simp] theorem State.send_script (b : Byte) (s : State) : (s.send b).script = s.script := rfl

@[simp] theorem State.latchTx_outBuf (s : State) : s.latchTx.outBuf = s.outBuf := rfl
@[simp] theorem State.latchTx_inBuf (s : State) : s.latchTx.inBuf = s.inBuf := rfl
@[simp] theorem State.latchTx_txc (s : State) : s.latchTx.txc = s.txc := rfl
@[simp] theorem State.latchTx_rxc (s : State) : s.latchTx.rxc = s.rxc := rfl
@[simp] theorem State.latchTx_mode (s : State) : s.latchTx.mode = s.mode := rfl
@[simp] theorem State.latchTx_txp (s : State) : s.latchTx.txp = true := rfl
@[simp] theorem State.latchTx_rxp (s : State) : s.latchTx.rxp = s.rxp := rfl
@[simp] theorem State.latchTx_rxd (s : State) : s.latchTx.rxd = s.rxd := rfl
@[simp] theorem State.latchTx_txlog (s : State) : s.latchTx.txlog = s.txlog := rfl
@[simp] theorem State.latchTx_fault (s : State) : s.latchTx.fault = s.fault := rfl
@[simp] theorem State.latchTx_frame (s : State) : s.latchTx.frame = s.frame := rfl
@[simp] theorem State.latchTx_results (s : State) : s.latchTx.results = s.results := rfl
@[simp] theorem State.latchTx_script (s : State) : s.latchTx.script = s.script := rfl

@[simp] theorem State.latchRx_outBuf (b : Byte) (s : State) : (s.latchRx b).outBuf = s.outBuf := rfl
@[simp] theorem State.latchRx_inBuf (b : Byte) (s : State) : (s.latchRx b).inBuf = s.inBuf := rfl
@[simp] theorem State.latchRx_txc (b : Byte) (s : State) : (s.latchRx b).txc = s.txc := rfl
@[simp] theorem State.latchRx_rxc (b : Byte) (s : State) : (s.latchRx b).rxc = s.rxc := rfl
@[simp] theorem State.latchRx_mode (b : Byte) (s : State) : (s.latchRx b).mode = s.mode := rfl
@[simp] theorem State.latchRx_txp (b : Byte) (s : State) : (s.latchRx b).txp = s.txp := rfl
@[simp] theorem State.latchRx_rxp (b : Byte) (s : State) : (s.latchRx b).rxp = true := rfl
@[simp] theorem State.latchRx_rxd (b : Byte) (s : State) : (s.latchRx b).rxd = .written b := rfl
@[simp] theorem State.latchRx_txlog (b : Byte) (s : State) : (s.latchRx b).txlog = s.txlog := rfl
@[simp] theorem State.latchRx_fault (b : Byte) (s : State) : (s.latchRx b).fault = s.fault := rfl
@[simp] theorem State.latchRx_frame (b : Byte) (s : State) : (s.latchRx b).frame = s.frame := rfl
@[simp] theorem State.latchRx_results (b : Byte) (s : State) : (s.latchRx b).results = s.results := rfl
@[simp] theorem State.latchRx_script (b : Byte) (s : State) : (s.latchRx b).script = s.script := rfl

@[simp] theorem State.ackTx_outBuf (s : State) : s.ackTx.outBuf = s.outBuf := rfl
@[simp] theorem State.ackTx_inBuf (s : State) : s.ackTx.inBuf = s.inBuf := rfl
@[simp] theorem State.ackTx_txc (s : State) : s.ackTx.txc = s.txc := rfl
@[simp] theorem State.ackTx_rxc (s : State) : s.ackTx.rxc = s.rxc := rfl
@[simp] theorem State.ackTx_mode (s : State) : s.ackTx.mode = s.mode := rfl
@[simp] theorem State.ackTx_txp (s : State) : s.ackTx.txp = false := rfl
@[simp] theorem State.ackTx_rxp (s : State) : s.ackTx.rxp = s.rxp := rfl
@[simp] theorem State.ackTx_rxd (s : State) : s.ackTx.rxd = s.rxd := rfl
@[simp] theorem State.ackTx_txlog (s : State) : s.ackTx.txlog = s.txlog := rfl
@[simp] theorem State.ackTx_fault (s : State) : s.ackTx.fault = s.fault := rfl
@[simp] theorem State.ackTx_frame (s : State) : s.ackTx.frame = s.frame := rfl
@[simp] theorem State.ackTx_results (s : State) : s.ackTx.results = s.results := rfl
@[simp] theorem State.ackTx_script (s : State) : s.ackTx.script = s.script := rfl

@[simp] theorem State.ackRx_outBuf (s : State) : s.ackRx.outBuf = s.outBuf := rfl
@[simp] theorem State.ackRx_inBuf (s : State) : s.ackRx.inBuf = s.inBuf := rfl
@[simp] theorem State.ackRx_txc (s : State) : s.ackRx.txc = s.txc := rfl
@[simp] theorem State.ackRx_rxc (s : State) : s.ackRx.rxc = s.rxc := rfl
@[simp] theorem State.ackRx_mode (s : State) : s.ackRx.mode = s.mode := rfl
@[simp] theorem State.ackRx_txp (s : State) : s.ackRx.txp = s.txp := rfl
@[simp] theorem State.ackRx_rxp (s : State) : s.ackRx.rxp = false := rfl
@[simp] theorem State.ackRx_rxd (s : State) : s.ackRx.rxd = .unwritten := rfl
@[simp] theorem State.ackRx_txlog (s : State) : s.ackRx.txlog = s.txlog := rfl
@[simp] theorem State.ackRx_fault (s : State) : s.ackRx.fault = s.fault := rfl
@[simp] theorem State.ackRx_frame (s : State) : s.ackRx.frame = s.frame := rfl
@[simp] theorem State.ackRx_results (s : State) : s.ackRx.results = s.results := rfl
@[simp] theorem State.ackRx_script (s : State) : s.ackRx.script = s.script := rfl

@[simp] theorem State.advanceTx_outBuf (s : State) : s.advanceTx.outBuf = s.outBuf := rfl
@[simp] theorem State.advanceTx_inBuf (s : State) : s.advanceTx.inBuf = s.inBuf := rfl
@[simp] theorem State.advanceTx_txc (s : State) : s.advanceTx.txc = advance s.frame s.txc := rfl
@[simp] theorem State.advanceTx_rxc (s : State) : s.advanceTx.rxc = s.rxc := rfl
@[simp] theorem State.advanceTx_mode (s : State) : s.advanceTx.mode = s.mode := rfl
@[simp] theorem State.advanceTx_txp (s : State) : s.advanceTx.txp = s.txp := rfl
@[simp] theorem State.advanceTx_rxp (s : State) : s.advanceTx.rxp = s.rxp := rfl
@[simp] theorem State.advanceTx_rxd (s : State) : s.advanceTx.rxd = s.rxd := rfl
@[simp] theorem State.advanceTx_txlog (s : State) : s.advanceTx.txlog = s.txlog := rfl
@[simp] theorem State.advanceTx_fault (s : State) : s.advanceTx.fault = s.fault := rfl
@[simp] theorem State.advanceTx_frame (s : State) : s.advanceTx.frame = s.frame := rfl
@[simp] theorem State.advanceTx_results (s : State) : s.advanceTx.results = s.results := rfl
@[simp] theorem State.advanceTx_script (s : State) : s.advanceTx.script = s.script := rfl

@[simp] theorem State.advanceRx_outBuf (s : State) : s.advanceRx.outBuf = s.outBuf := rfl
@[simp] theorem State.advanceRx_inBuf (s : State) : s.advanceRx.inBuf = s.inBuf := rfl
@[simp] theorem State.advanceRx_txc (s : State) : s.advanceRx.txc = s.txc := rfl
@[simp] theorem State.advanceRx_rxc (s : State) : s.advanceRx.rxc = advance s.frame s.rxc := rfl
@[simp] theorem State.advanceRx_mode (s : State) : s.advanceRx.mode = s.mode := rfl
@[simp] theorem State.advanceRx_txp (s : State) : s.advanceRx.txp = s.txp := rfl
@[simp] theorem State.advanceRx_rxp (s : State) : s.advanceRx.rxp = s.rxp := rfl
@[simp] theorem State.advanceRx_rxd (s : State) : s.advanceRx.rxd = s.rxd := rfl
@[simp] theorem State.advanceRx_txlog (s : State) : s.advanceRx.txlog = s.txlog := rfl
@[simp] theorem State.advanceRx_fault (s : State) : s.advanceRx.fault = s.fault := rfl
@[simp] theorem State.advanceRx_frame (s : State) : s.advanceRx.frame = s.frame := rfl
@[simp] theorem State.advanceRx_results (s : State) : s.advanceRx.results = s.results := rfl
@[simp] theorem State.advanceRx_script (s : State) : s.advanceRx.script = s.script := rfl

@[simp] theorem State.enableEvents_outBuf (s : State) : s.enableEvents.outBuf = s.outBuf := rfl
@[simp] theorem State.enableEvents_inBuf (s : State) : s.enableEvents.inBuf = s.inBuf := rfl
@[simp] theorem State.enableEvents_txc (s : State) : s.enableEvents.txc = s.txc := rfl
@[simp] theorem State.enableEvents_rxc (s : State) : s.enableEvents.rxc = s.rxc := rfl
@[simp] theorem State.enableEvents_mode (s : State) : s.enableEvents.mode = .running := rfl
@[simp] theorem State.enableEvents_txp (s : State) : s.enableEvents.txp = s.txp := rfl
@[simp] theorem State.enableEvents_rxp (s : State) : s.enableEvents.rxp = s.rxp := rfl
@[simp] theorem State.enableEvents_rxd (s : State) : s.enableEvents.rxd = s.rxd := rfl
@[simp] theorem State.enableEvents_txlog (s : State) : s.enableEvents.txlog = s.txlog := rfl
@[simp] theorem State.enableEvents_fault (s : State) : s.enableEvents.fault = s.fault := rfl
@[simp] theorem State.enableEvents_frame (s : State) : s.enableEvents.frame = s.frame := rfl
@[simp] theorem State.enableEvents_results (s : State) : s.enableEvents.results = s.results := rfl
@[simp] theorem State.enableEvents_script (s : State) : s.enableEvents.script = s.script := rfl

@[simp] theorem State.answer_outBuf (r : HostResult) (s : State) : (s.answer r).outBuf = s.outBuf := rfl
@[simp] theorem State.answer_inBuf (r : HostResult) (s : State) : (s.answer r).inBuf = s.inBuf := rfl
@[simp] theorem State.answer_txc (r : HostResult) (s : State) : (s.answer r).txc = s.txc := rfl
@[simp] theorem State.answer_rxc (r : HostResult) (s : State) : (s.answer r).rxc = s.rxc := rfl
@[simp] theorem State.answer_mode (r : HostResult) (s : State) : (s.answer r).mode = s.mode := rfl
@[simp] theorem State.answer_txp (r : HostResult) (s : State) : (s.answer r).txp = s.txp := rfl
@[simp] theorem State.answer_rxp (r : HostResult) (s : State) : (s.answer r).rxp = s.rxp := rfl
@[simp] theorem State.answer_rxd (r : HostResult) (s : State) : (s.answer r).rxd = s.rxd := rfl
@[simp] theorem State.answer_txlog (r : HostResult) (s : State) : (s.answer r).txlog = s.txlog := rfl
@[simp] theorem State.answer_fault (r : HostResult) (s : State) : (s.answer r).fault = s.fault := rfl
@[simp] theorem State.answer_frame (r : HostResult) (s : State) : (s.answer r).frame = s.frame := rfl
@[simp] theorem State.answer_results (r : HostResult) (s : State) : (s.answer r).results = s.results ++ [r] := rfl
@[simp] theorem State.answer_script (r : HostResult) (s : State) : (s.answer r).script = s.script := rfl

@[simp] theorem State.record_outBuf (c : FaultCode) (w : Word) (s : State) : (s.record c w).outBuf = s.outBuf := rfl
@[simp] theorem State.record_inBuf (c : FaultCode) (w : Word) (s : State) : (s.record c w).inBuf = s.inBuf := rfl
@[simp] theorem State.record_txc (c : FaultCode) (w : Word) (s : State) : (s.record c w).txc = s.txc := rfl
@[simp] theorem State.record_rxc (c : FaultCode) (w : Word) (s : State) : (s.record c w).rxc = s.rxc := rfl
@[simp] theorem State.record_mode (c : FaultCode) (w : Word) (s : State) : (s.record c w).mode = s.mode := rfl
@[simp] theorem State.record_txp (c : FaultCode) (w : Word) (s : State) : (s.record c w).txp = s.txp := rfl
@[simp] theorem State.record_rxp (c : FaultCode) (w : Word) (s : State) : (s.record c w).rxp = s.rxp := rfl
@[simp] theorem State.record_rxd (c : FaultCode) (w : Word) (s : State) : (s.record c w).rxd = s.rxd := rfl
@[simp] theorem State.record_txlog (c : FaultCode) (w : Word) (s : State) : (s.record c w).txlog = s.txlog := rfl
@[simp] theorem State.record_fault (c : FaultCode) (w : Word) (s : State) : (s.record c w).fault = some ⟨c, w⟩ := rfl
@[simp] theorem State.record_frame (c : FaultCode) (w : Word) (s : State) : (s.record c w).frame = s.frame := rfl
@[simp] theorem State.record_results (c : FaultCode) (w : Word) (s : State) : (s.record c w).results = s.results := rfl
@[simp] theorem State.record_script (c : FaultCode) (w : Word) (s : State) : (s.record c w).script = s.script := rfl

@[simp] theorem State.clear_outBuf (s : State) : s.clear.outBuf = [] := rfl
@[simp] theorem State.clear_inBuf (s : State) : s.clear.inBuf = [] := rfl
@[simp] theorem State.clear_txc (s : State) : s.clear.txc = 0 := rfl
@[simp] theorem State.clear_rxc (s : State) : s.clear.rxc = 0 := rfl
@[simp] theorem State.clear_mode (s : State) : s.clear.mode = .idle := rfl
@[simp] theorem State.clear_txp (s : State) : s.clear.txp = false := rfl
@[simp] theorem State.clear_rxp (s : State) : s.clear.rxp = false := rfl
@[simp] theorem State.clear_rxd (s : State) : s.clear.rxd = .unwritten := rfl
@[simp] theorem State.clear_txlog (s : State) : s.clear.txlog = s.txlog := rfl
@[simp] theorem State.clear_fault (s : State) : s.clear.fault = s.fault := rfl
@[simp] theorem State.clear_frame (s : State) : s.clear.frame = s.frame := rfl
@[simp] theorem State.clear_results (s : State) : s.clear.results = s.results := rfl
@[simp] theorem State.clear_script (s : State) : s.clear.script = s.script := rfl

@[simp] theorem State.withScript_outBuf (ws : List Word) (s : State) : (s.withScript ws).outBuf = s.outBuf := rfl
@[simp] theorem State.withScript_inBuf (ws : List Word) (s : State) : (s.withScript ws).inBuf = s.inBuf := rfl
@[simp] theorem State.withScript_txc (ws : List Word) (s : State) : (s.withScript ws).txc = s.txc := rfl
@[simp] theorem State.withScript_rxc (ws : List Word) (s : State) : (s.withScript ws).rxc = s.rxc := rfl
@[simp] theorem State.withScript_mode (ws : List Word) (s : State) : (s.withScript ws).mode = s.mode := rfl
@[simp] theorem State.withScript_txp (ws : List Word) (s : State) : (s.withScript ws).txp = s.txp := rfl
@[simp] theorem State.withScript_rxp (ws : List Word) (s : State) : (s.withScript ws).rxp = s.rxp := rfl
@[simp] theorem State.withScript_rxd (ws : List Word) (s : State) : (s.withScript ws).rxd = s.rxd := rfl
@[simp] theorem State.withScript_txlog (ws : List Word) (s : State) : (s.withScript ws).txlog = s.txlog := rfl
@[simp] theorem State.withScript_fault (ws : List Word) (s : State) : (s.withScript ws).fault = s.fault := rfl
@[simp] theorem State.withScript_frame (ws : List Word) (s : State) : (s.withScript ws).frame = s.frame := rfl
@[simp] theorem State.withScript_results (ws : List Word) (s : State) : (s.withScript ws).results = s.results := rfl
@[simp] theorem State.withScript_script (ws : List Word) (s : State) : (s.withScript ws).script = ws := rfl

@[simp] theorem State.start_outBuf (n : FrameSize) : (State.start n).outBuf = [] := rfl
@[simp] theorem State.start_inBuf (n : FrameSize) : (State.start n).inBuf = [] := rfl
@[simp] theorem State.start_txc (n : FrameSize) : (State.start n).txc = 0 := rfl
@[simp] theorem State.start_rxc (n : FrameSize) : (State.start n).rxc = 0 := rfl
@[simp] theorem State.start_mode (n : FrameSize) : (State.start n).mode = .idle := rfl
@[simp] theorem State.start_txp (n : FrameSize) : (State.start n).txp = false := rfl
@[simp] theorem State.start_rxp (n : FrameSize) : (State.start n).rxp = false := rfl
@[simp] theorem State.start_rxd (n : FrameSize) : (State.start n).rxd = .unwritten := rfl
@[simp] theorem State.start_txlog (n : FrameSize) : (State.start n).txlog = [] := rfl
@[simp] theorem State.start_fault (n : FrameSize) : (State.start n).fault = none := rfl
@[simp] theorem State.start_frame (n : FrameSize) : (State.start n).frame = n := rfl
@[simp] theorem State.start_results (n : FrameSize) : (State.start n).results = [] := rfl
@[simp] theorem State.start_script (n : FrameSize) : (State.start n).script = [] := rfl

end Sys2Proof.Machine
end

