-- ==== Sys2Proof/Laws/Script.lean ====
section
/-!
SUPPORT. A label neither reads nor writes the script (log entry 2): with any other script it does the same.
-/

namespace Sys2Proof.Machine

theorem whenLive_withScript (ws : List Word) (s : State) (k : StepResult) :
    whenLive (s.withScript ws) k = whenLive s k := rfl

theorem exec_withScript {i : Instr} {s t : State} (ws : List Word) (h : exec i s = .next t) :
    exec i (s.withScript ws) = .next (t.withScript ws) := by
  cases i with
  | wrout idx data =>
    obtain ⟨hl, ⟨hi, rfl⟩ | ⟨hi, hm, rfl⟩ | ⟨hi, hm, rfl⟩⟩ := execWrout_next h
    · simp [exec, execWrout, hl, withIndex, Nat.not_lt.mpr hi, raise]; rfl
    · simp [exec, execWrout, hl, withIndex, hi, hm, raise]; rfl
    · simp [exec, execWrout, hl, withIndex, hi, hm]; rfl
  | rdout idx =>
    obtain ⟨hl, ⟨hi, rfl⟩ | ⟨hi, hc, rfl⟩ | ⟨hi, b, hc, rfl⟩⟩ := execRdout_next h
    · simp [exec, execRdout, hl, withIndex, Nat.not_lt.mpr hi, raise]; rfl
    · simp [exec, execRdout, hl, withIndex, hi, hc, raise]; rfl
    · simp [exec, execRdout, hl, withIndex, hi, hc, hostReturn]; rfl
  | rdin idx =>
    obtain ⟨hl, ⟨hi, rfl⟩ | ⟨hi, hc, rfl⟩ | ⟨hi, b, hc, rfl⟩⟩ := execRdin_next h
    · simp [exec, execRdin, hl, withIndex, Nat.not_lt.mpr hi, raise]; rfl
    · simp [exec, execRdin, hl, withIndex, hi, hc, raise]; rfl
    · simp [exec, execRdin, hl, withIndex, hi, hc, hostReturn]; rfl
  | rdstat =>
    obtain ⟨hl, rfl⟩ := execRdstat_next h
    simp [exec, execRdstat, hl, hostReturn]; rfl
  | rdtxc =>
    obtain ⟨hl, rfl⟩ := execRdtxc_next h
    simp [exec, execRdtxc, hl, hostReturn]; rfl
  | rdrxc =>
    obtain ⟨hl, rfl⟩ := execRdrxc_next h
    simp [exec, execRdrxc, hl, hostReturn]; rfl
  | arm =>
    obtain ⟨hl, ⟨hm, rfl⟩ | ⟨hm, ha, rfl⟩ | ⟨hm, ha, rfl⟩⟩ := execArm_next h
    · simp [exec, execArm, hl, hm, raise]; rfl
    · simp [exec, execArm, hl, hm, ha, raise]; rfl
    · simp [exec, execArm, hl, hm, ha]; rfl
  | txrdy =>
    obtain ⟨hl, ⟨hp, rfl⟩ | ⟨hp, rfl⟩⟩ := execTxrdy_next h
    · simp [exec, execTxrdy, hl, hp, raise]; rfl
    · simp [exec, execTxrdy, hl, hp]; rfl
  | rxrdy data =>
    obtain ⟨hl, ⟨hp, rfl⟩ | ⟨hp, rfl⟩⟩ := execRxrdy_next h
    · simp [exec, execRxrdy, hl, hp, raise]; rfl
    · simp [exec, execRxrdy, hl, hp]; rfl
  | txh =>
    obtain ⟨hl, hm, hp, hc, ⟨hb, rfl⟩ | ⟨b, hb, rfl⟩⟩ := execTxh_next h
    all_goals
      have hg : (s.withScript ws).txhGuard = true := s.txhGuard_iff.mpr ⟨hm, hp⟩
      have ho : (s.withScript ws).currentOut = s.currentOut := rfl
      have hk (k : StepResult) : withCursor s.txc (s.withScript ws) k = k := withCursor_inside hc k
      simp [exec, execTxh, hl, hg, hk, ho, hb, raise]
      rfl
  | rxh =>
    obtain ⟨hl, hm, hp, hc, b, hb, rfl⟩ := execRxh_next h
    have hg : (s.withScript ws).rxhGuard = true := s.rxhGuard_iff.mpr ⟨hm, hp⟩
    have hb' : (s.withScript ws).rxd = .written b := hb
    have hk (k : StepResult) : withCursor s.rxc (s.withScript ws) k = k := withCursor_inside hc k
    simp [exec, execRxh, hl, hg, hk, withLatch_written hb']
    rfl
  | reset =>
    obtain ⟨hl, rfl⟩ := execReset_next h
    simp [exec, execReset, hl]; rfl

end Sys2Proof.Machine
end

