-- ==== Sys2Proof/Tests/Slice0.lean ====
section
/-!
SUPPORT. Tests with results from spec/ (95_test_vectors.md and the rules' own examples), a smoke test of every
well-formedness check, and for every statement with hypotheses a witness that meets them, clause by clause.
-/

namespace Sys2Proof.Tests

open Sys2Proof.Machine

/-! ### Small states -/

def n1 : FrameSize := ⟨1, by decide, by decide⟩
def n3 : FrameSize := ⟨3, by decide, by decide⟩
def nMax : FrameSize := ⟨65536, by decide, by decide⟩

/-- Reset, N = 3. -/
def fresh : State := State.start n3

/-- OUT = [0x10, 0x20, 0x30], Idle, N = 3. -/
def seeded : State := { fresh with outBuf := [(0, 0x10), (1, 0x20), (2, 0x30)] }

/-- The same, Running. -/
def armed : State := { seeded with mode := .running }

/-- Running, N = 1, OUT = [0x5A] (P4). -/
def armed1 : State := { State.start n1 with outBuf := [(0, 0x5A)], mode := .running }

/-- Running with both events pending and both cursors at N - 1. -/
def busy : State := { armed with txp := true, txc := 2, rxp := true, rxd := .written 0xA9, rxc := 2 }

/-- A faulted state. -/
def faulted : State := { fresh with fault := some ⟨.reservedField, 0x00001001⟩ }

/-- The next state of an outcome. -/
def nextOf : StepResult → Option State
  | .next s => some s
  | .fault _ => none
  | .refused _ => none

/-- The stop of an outcome. -/
def stopOf : StepResult → Option Fault
  | .next _ => none
  | .fault f => some f
  | .refused _ => none

/-- The fault record after an outcome. -/
def faultOf (r : StepResult) : Option FaultRecord := (nextOf r).bind State.fault

/-! ### Well-formedness: an ill-formed term for each check (R63, R66) -/

theorem test_wf_accepts : Fields.wellFormed ⟨9, 0, 0xFF, 0x1⟩ = true := by decide
theorem test_wf_refuses_opcode : Fields.opLegal ⟨0, 0, 0, 0xD⟩ = false ∧ Fields.wellFormed ⟨0, 0, 0, 0xD⟩ = false := by
  decide
theorem test_wf_refuses_rsv : Fields.rsvZero ⟨0, 1, 0, 0x1⟩ = false ∧ Fields.wellFormed ⟨0, 1, 0, 0x1⟩ = false := by
  decide
theorem test_wf_refuses_data : Fields.dataAllowed ⟨0, 0, 1, 0x2⟩ = false ∧ Fields.wellFormed ⟨0, 0, 1, 0x2⟩ = false := by
  decide
theorem test_wf_refuses_idx : Fields.idxAllowed ⟨1, 0, 0, 0x9⟩ = false ∧ Fields.wellFormed ⟨1, 0, 0, 0x9⟩ = false := by
  decide

/-! ### Decoding: words written out from R59 and R72, fields parted by the underscores of R59 -/

theorem test_decode_wrout : decode 0b0000000000001001_0000_00001001_0001 = .ok (.wrout 9 0x09) := by decide
theorem test_decode_rdout : decode 0b1000000000000001_0000_00000000_0010 = .ok (.rdout 0x8001) := by decide
theorem test_decode_rdin : decode 0b0000000000000011_0000_00000000_0011 = .ok (.rdin 3) := by decide
theorem test_decode_rdstat : decode 0b0000000000000000_0000_00000000_0100 = .ok .rdstat := by decide
theorem test_decode_rdtxc : decode 0b0000000000000000_0000_00000000_0101 = .ok .rdtxc := by decide
theorem test_decode_rdrxc : decode 0b0000000000000000_0000_00000000_0110 = .ok .rdrxc := by decide
theorem test_decode_arm : decode 0b0000000000000000_0000_00000000_0111 = .ok .arm := by decide
theorem test_decode_txrdy : decode 0b0000000000000000_0000_00000000_1000 = .ok .txrdy := by decide
theorem test_decode_rxrdy : decode 0b0000000000000000_0000_10100000_1001 = .ok (.rxrdy 0xA0) := by decide
theorem test_decode_txh : decode 0b0000000000000000_0000_00000000_1010 = .ok .txh := by decide
theorem test_decode_rxh : decode 0b0000000000000000_0000_00000000_1011 = .ok .rxh := by decide
theorem test_decode_reset : decode 0b0000000000000000_0000_00000000_1111 = .ok .reset := by decide

/-- 95_test_vectors.md 2.2, the faults. -/
theorem test_decode_faults :
    [0x00000000, 0x0000000C, 0x0000000D, 0x0000000E, 0x00000030].all
      (fun w => decide (decode w = .error .illegalOp)) = true ∧
    [0x00001001, 0x0000F00F, 0x0009FFF1, 0x00000017, 0x00000012, 0x00010004, 0x00000A08, 0x00010009].all
      (fun w => decide (decode w = .error .reservedField)) = true := by decide

/-- 95_test_vectors.md 2.2, encoding round trips. -/
theorem test_encode_words :
    encode (.wrout 65535 0xFF) = 0xFFFF0FF1 ∧ encode (.rdout 3) = 0x00030002 ∧ encode (.rdin 9) = 0x00090003 ∧
      encode (.rxrdy 0xFF) = 0x00000FF9 ∧ encode .reset = 0x0000000F := by decide

theorem test_decodeTableWord : decodeTableWord 32 0xFFFF0FF1 = some (.wrout 65535 0xFF) ∧ decodeTableWord 32 0 = none := by
  decide

theorem test_withFetchWord : (nextOf (step (State.reset.withFetchWord 32 0x00000A09))).map State.rxd = some (.written 0xA0) := by
  decide

/-! ### One step of each label -/

/-- 2.3: WROUT 3, 0x55 at N = 10, and the rewrite. -/
theorem test_wrout : (nextOf (exec (.wrout 3 0x55) State.reset)).map State.outBuf = some [(3, 0x55)] := by decide
theorem test_wrout_rewrites_in_order :
    (nextOf (exec (.wrout 1 0x66) seeded)).map State.outBuf = some [(0, 0x10), (1, 0x66), (2, 0x30)] := by decide
theorem test_rdout : (nextOf (exec (.rdout 2) armed)).map State.results = some [.byte 0x30] := by decide
theorem test_rdout_index : faultOf (exec (.rdout 10) State.reset) = some ⟨.indexRange, 0x000A0002⟩ := by decide
theorem test_rdin : (nextOf (exec (.rdin 2) { armed with inBuf := [(2, 0xA3)] })).map State.results = some [.byte 0xA3] := by
  decide
theorem test_rdin_unwritten : faultOf (exec (.rdin 0) State.reset) = some ⟨.unwrittenRead, 0x00000003⟩ := by decide
/-- 2.6: Running, TXP = 1 gives 0x03; Running, RXP = 1 gives 0x05. -/
theorem test_rdstat_tx : (nextOf (exec .rdstat { armed with txp := true })).map State.results = some [.byte 0x03] := by decide
theorem test_rdstat_rx : (nextOf (exec .rdstat { armed with rxp := true })).map State.results = some [.byte 0x05] := by decide
theorem test_rdtxc : (nextOf (exec .rdtxc { armed with txc := 2 })).map State.results = some [.half 2] := by decide
theorem test_rdrxc_max :
    (nextOf (exec .rdrxc { State.start nMax with rxc := 65535 })).map State.results = some [.half 0xFFFF] := by decide
theorem test_arm : (nextOf (exec .arm seeded)).map State.mode = some .running := by decide
/-- P5: slot 2 unwritten. -/
theorem test_arm_before_seed :
    faultOf (exec .arm { fresh with outBuf := [(0, 0x11), (1, 0x22)] }) = some ⟨.armBeforeSeed, 0x00000007⟩ := by decide
theorem test_txrdy : (nextOf (exec .txrdy fresh)).map State.statusByte = some 0x02 := by decide
theorem test_txrdy_twice : faultOf (exec .txrdy { fresh with txp := true }) = some ⟨.txReassert, 0x00000008⟩ := by decide
theorem test_rxrdy : (nextOf (exec (.rxrdy 0xA0) fresh)).map State.statusByte = some 0x04 := by decide
theorem test_rxrdy_keeps_first_byte :
    (nextOf (exec (.rxrdy 0x02) { fresh with rxp := true, rxd := .written 0x01 })).map
      (fun s => (s.rxd, s.fault)) = some (.written 0x01, some ⟨.rxOverrun, 0x00000029⟩) := by decide
/-- 2.5: the wrap at N - 1. -/
theorem test_txh_wraps : (nextOf (exec .txh busy)).map (fun s => (s.txlog, s.txc, s.txp)) = some ([0x30], 0, false) := by
  decide
theorem test_txh_stuck_in_idle : stopOf (exec .txh { seeded with txp := true }) = some .notEnabled := by decide
theorem test_rxh_wraps :
    (nextOf (exec .rxh busy)).map (fun s => (s.inBuf, s.rxc, s.rxd)) = some ([(2, 0xA9)], 0, .unwritten) := by decide
theorem test_rxh_max :
    (nextOf (exec .rxh { State.start nMax with mode := .running, rxc := 65535, rxp := true, rxd := .written 1 })).map
      (fun s => (s.inBuf, s.rxc)) = some ([(65535, 1)], 0) := by decide
theorem test_reset_keeps_txlog :
    nextOf (exec .reset { busy with txlog := [0x00, 0x01] }) = some { fresh with txlog := [0x00, 0x01] } := by decide
theorem test_reset_stuck_after_fault : stopOf (exec .reset faulted) = some .quiescent := by decide

/-- 2.1: advance at its edges. -/
theorem test_advance :
    advance n1 0 = 0 ∧ advance n3 1 = 2 ∧ advance n3 2 = 0 ∧ advance nMax 65534 = 65535 ∧ advance nMax 65535 = 0 := by
  decide

/-! ### Scripts (R69, R71) -/

theorem test_asm_line :
    assembleLine n3 "  WROUT 2, 0x5a ; seed".toList = .ok [.wrout 2 0x5A] ∧
      assembleLine n3 "RXEV 0xA0".toList = .ok [.rxrdy 0xA0, .rxh] ∧ assembleLine n3 " ; note".toList = .ok [] := by decide
theorem test_asm_refuses :
    assembleLine n3 "WROUT 65536, 0".toList = .error .operandRange ∧ assembleLine n3 "RDIN 1x".toList = .error .badNumber ∧
      assembleLine n3 "SEED 1, 2".toList = .error .operandCount ∧ assembleLine n3 "arm".toList = .error .unknownMnemonic := by
  decide

/-! ### Witnesses -/

theorem witness_DecoderFollowsItsRule_illegal :
    fresh.fault = none ∧ ({ fresh with script := [0x0000000D] } : State).script = 0x0000000D :: [] ∧
      decode 0x0000000D = .error .illegalOp := by decide
theorem witness_DecoderFollowsItsRule_reserved :
    fresh.fault = none ∧ ({ fresh with script := [0x00001007] } : State).script = 0x00001007 :: [] ∧
      decode 0x00001007 = .error .reservedField := by decide
theorem witness_EncodeOfDecodeIsTheWord : decode 0xFFFF0FF1 = .ok (.wrout 65535 0xFF) := by decide

theorem witness_OpcodeMapDecides_legal_but_uncovered :
    (∀ r ∈ opcodeMap, (0x00000017 : Word) &&& r.mask ≠ r.pattern) ∧
      fieldOp 0x00000017 ∉ [0x0#4, 0xC#4, 0xD#4, 0xE#4] := by decide

theorem witness_StepTakesTheDecodedLabel :
    ({ fresh with script := [0x00000004] } : State).fault = none ∧ decode 0x00000004 = .ok .rdstat := by decide

theorem witness_IllegalOpcodeFaults :
    fresh.fault = none ∧ ({ fresh with script := [0xFFFFFFFE] } : State).script = 0xFFFFFFFE :: [] ∧
      fieldOp 0xFFFFFFFE ∈ [0x0#4, 0xC#4, 0xD#4, 0xE#4] := by decide

theorem witness_ReservedFieldFaults_rsv : fieldOp 0x00001001 ∉ [0x0#4, 0xC#4, 0xD#4, 0xE#4] ∧ fieldRsv 0x00001001 ≠ 0 := by
  decide
theorem witness_ReservedFieldFaults_data :
    fieldOp 0x00000012 ∉ [0x0#4, 0xC#4, 0xD#4, 0xE#4] ∧ fieldOp 0x00000012 ∉ [0x1#4, 0x9#4] ∧ fieldData 0x00000012 ≠ 0 := by
  decide
theorem witness_ReservedFieldFaults_idx :
    fieldOp 0x00010009 ∉ [0x0#4, 0xC#4, 0xD#4, 0xE#4] ∧ fieldOp 0x00010009 ∉ [0x1#4, 0x2#4, 0x3#4] ∧
      fieldIdx 0x00010009 ≠ 0 := by decide

theorem witness_StepWaitsWithNoWord : fresh.fault = none ∧ fresh.script = [] := by decide
theorem witness_FaultedMachineIsStuck : faulted.fault ≠ none := by decide

/-- For FaultEntryChangesOnlyFault and RecordedFaultHasItsCause, one of a label and one of the decoder. -/
theorem witness_recorded_fault_label :
    ∃ t, fresh.fault = none ∧ step { fresh with script := [0x00030002] } = .next t ∧
      t.fault = some ⟨.indexRange, 0x00030002⟩ := ⟨_, rfl, rfl, by decide⟩
theorem witness_recorded_fault_decode :
    ∃ t, fresh.fault = none ∧ step { fresh with script := [0x00001001] } = .next t ∧
      t.fault = some ⟨.reservedField, 0x00001001⟩ := ⟨_, rfl, rfl, by decide⟩

/-- For FaultPriorityPerLabel, WroutSeedsItsSlot, RdoutReturnsItsSlot, RdinReturnsItsSlot: idx = N and idx = N - 1. -/
theorem witness_index_outside : armed.fault = none ∧ armed.frame.size ≤ (3 : Half).toNat := by decide
theorem witness_wrout_running : armed.fault = none ∧ (2 : Half).toNat < armed.frame.size ∧ armed.mode = .running := by decide
theorem witness_wrout_idle : seeded.fault = none ∧ (2 : Half).toNat < seeded.frame.size ∧ seeded.mode = .idle := by decide
theorem witness_read_unwritten :
    fresh.fault = none ∧ (2 : Half).toNat < fresh.frame.size ∧ fresh.outBuf.read (2 : Half).toNat = .unwritten ∧
      fresh.inBuf.read (2 : Half).toNat = .unwritten := by decide
theorem witness_rdout_written : (2 : Half).toNat < armed.frame.size ∧ armed.outBuf.read (2 : Half).toNat = .written 0x30 := by
  decide
theorem witness_rdin_written :
    ({ armed with inBuf := [(2, 0xA3)] } : State).inBuf.read (2 : Half).toNat = .written 0xA3 := by decide
theorem witness_priority_illegal :
    ({ fresh with script := [0x0000000C] } : State).script = 0x0000000C :: [] ∧
      fieldOp 0x0000000C ∈ [0x0#4, 0xC#4, 0xD#4, 0xE#4] := by decide
theorem witness_priority_reserved :
    ({ armed with script := [0x00001007] } : State).script = 0x00001007 :: [] ∧
      decode 0x00001007 = .error .reservedField := by decide

theorem witness_StepTakesOneWordAndKeepsN :
    ∃ t, step { fresh with script := [0x00000008] } = .next t := ⟨_, rfl⟩

/-- For RdstatReturnsTheStatusBits, RdtxcReturnsTheCursor, RdrxcReturnsTheCursor, ResetRestoresEverything. -/
theorem witness_live : busy.fault = none := by decide

theorem witness_arm_running : armed.fault = none ∧ armed.mode = .running := by decide
theorem witness_arm_unseeded : fresh.mode = .idle ∧ ∃ i < fresh.frame.size, fresh.outBuf.read i = .unwritten := by decide
theorem witness_arm_seeded : seeded.mode = .idle ∧ ∀ i < seeded.frame.size, seeded.outBuf.read i ≠ .unwritten := by decide

theorem witness_txrdy_pending : busy.fault = none ∧ busy.txp = true := by decide
theorem witness_txrdy_free : fresh.fault = none ∧ fresh.txp = false := by decide
theorem witness_rxrdy_pending : busy.fault = none ∧ busy.rxp = true := by decide
theorem witness_rxrdy_free : fresh.fault = none ∧ fresh.rxp = false := by decide

theorem witness_txh_disabled : seeded.fault = none ∧ ¬ (seeded.mode = .running ∧ seeded.txp = true) := by decide
theorem witness_txh_unwritten :
    ({ fresh with mode := .running, txp := true, txc := 2 } : State).outBuf.read 2 = .unwritten ∧
      ({ fresh with mode := .running, txp := true, txc := 2 } : State).txc.toNat < fresh.frame.size := by decide
theorem witness_txh_sends :
    busy.fault = none ∧ busy.mode = .running ∧ busy.txp = true ∧ busy.txc.toNat < busy.frame.size ∧
      busy.outBuf.read busy.txc.toNat = .written 0x30 := by decide
theorem witness_rxh_disabled : seeded.fault = none ∧ ¬ (seeded.mode = .running ∧ seeded.rxp = true) := by decide
theorem witness_rxh_stores :
    busy.fault = none ∧ busy.mode = .running ∧ busy.rxp = true ∧ busy.rxc.toNat < busy.frame.size ∧
      busy.rxd = .written 0xA9 := by decide
theorem witness_cursor_outside :
    ({ busy with txc := 3, rxc := 3 } : State).frame.size ≤ ({ busy with txc := 3, rxc := 3 } : State).txc.toNat ∧
      ({ busy with txc := 3, rxc := 3 } : State).frame.size ≤ ({ busy with txc := 3, rxc := 3 } : State).rxc.toNat := by decide
theorem witness_latch_unwritten :
    ({ busy with rxd := .unwritten } : State).rxp = true ∧ ({ busy with rxd := .unwritten } : State).rxc.toNat < 3 ∧
      ({ busy with rxd := .unwritten } : State).rxd = .unwritten := by decide

theorem witness_NoHandlerRightAfterReset : ∃ t, exec .reset busy = .next t := ⟨_, rfl⟩
theorem witness_ResetStateIsTheTable : ∃ t, busy.frame = n3 ∧ exec .reset busy = .next t := ⟨_, rfl, rfl⟩

/-- For the whole-machine rules, a step of each kind they speak of. -/
theorem witness_mode_to_running : ∃ t, exec .arm seeded = .next t ∧ seeded.mode = .idle ∧ t.mode = .running :=
  ⟨_, rfl, rfl, rfl⟩
theorem witness_mode_to_idle : ∃ t, exec .reset armed = .next t ∧ armed.mode = .running ∧ t.mode = .idle :=
  ⟨_, rfl, rfl, rfl⟩
theorem witness_txlog_txh : ∃ t, exec .txh busy = .next t ∧ t.fault = none := ⟨_, rfl, rfl⟩
theorem witness_txlog_other : ∃ t, exec .rxh busy = .next t ∧ Instr.rxh ≠ .txh := ⟨_, rfl, by decide⟩
theorem witness_writers_outBuf : ∃ t, exec (.wrout 0 1) fresh = .next t ∧ t.outBuf ≠ fresh.outBuf := ⟨_, rfl, by decide⟩
theorem witness_writers_txh : ∃ t, exec .txh busy = .next t ∧ t.txc ≠ busy.txc ∧ busy.txp = true ∧ t.txp = false :=
  ⟨_, rfl, by decide⟩
theorem witness_writers_rxh :
    ∃ t, exec .rxh busy = .next t ∧ t.inBuf ≠ busy.inBuf ∧ t.rxc ≠ busy.rxc ∧ t.rxd ≠ busy.rxd ∧ busy.rxp = true ∧
      t.rxp = false := ⟨_, rfl, by decide⟩
theorem witness_writers_txrdy : ∃ t, exec .txrdy fresh = .next t ∧ fresh.txp = false ∧ t.txp = true := ⟨_, rfl, by decide⟩
theorem witness_writers_rxrdy : ∃ t, exec (.rxrdy 7) fresh = .next t ∧ fresh.rxp = false ∧ t.rxp = true :=
  ⟨_, rfl, by decide⟩
theorem witness_agents :
    agentOf .arm = .host ∧ agentOf .txrdy = .periph ∧ agentOf .rxh = .engine ∧ agentOf .reset = .reset := by decide
theorem witness_HostReads_answer : ∃ t, exec (.rdout 2) armed = .next t ∧ t.results = armed.results ++ [.byte 0x30] :=
  ⟨_, rfl, by decide⟩
theorem witness_HostReads_fault : ∃ t, exec (.rdin 2) armed = .next t ∧ t.fault ≠ none := ⟨_, rfl, by decide⟩
theorem witness_Repeated_wrout : ∃ t, exec (.wrout 2 5) seeded = .next t ∧ t.fault = none := ⟨_, rfl, rfl⟩
theorem witness_Repeated_read :
    ∃ t, exec .rdstat armed = .next t ∧ t.results = armed.results ++ [.byte 0x01] := ⟨_, rfl, by decide⟩
theorem witness_Repeated_txrdy : ∃ t, exec .txrdy fresh = .next t ∧ t.fault = none := ⟨_, rfl, rfl⟩
theorem witness_Repeated_rxrdy : ∃ t, exec (.rxrdy 1) fresh = .next t ∧ t.fault = none := ⟨_, rfl, rfl⟩

/-- For EnabledLabelsAreTaken, HandlersCommute and EveryStepKeepsTheInvariant: the invariant, with both handlers enabled. -/
theorem witness_invariant_enabled : busy.Inv ∧ enabled .txh busy = true ∧ enabled .rxh busy = true := by decide
theorem witness_invariant_not_enabled : seeded.Inv ∧ enabled .txh seeded = false := by decide
theorem witness_EveryStepKeepsTheInvariant :
    ({ busy with script := [0x0000000B] } : State).Inv ∧ ∃ t, step { busy with script := [0x0000000B] } = .next t :=
  ⟨by decide, _, rfl⟩
theorem witness_PendingEventsSurviveArm :
    ∃ t, exec .arm { seeded with txp := true } = .next t ∧ t.fault = none := ⟨_, rfl, rfl⟩
theorem witness_DirectionsAreIndependent_tx :
    ({ busy with rxp := false, inBuf := [(0, 1)] } : State).txSide = busy.txSide ∧ ∃ t, exec .txh busy = .next t :=
  ⟨by decide, _, rfl⟩
theorem witness_DirectionsAreIndependent_rx :
    ({ busy with txp := false, txlog := [1] } : State).rxSide = busy.rxSide ∧ ∃ t, exec .rxh busy = .next t :=
  ⟨by decide, _, rfl⟩

/-- For CursorsStayBelowN, RunningMeansSeeded and LatchIsWrittenWhenPending: a reachable state, Running and pending. -/
theorem witness_reachable : ∃ s, Reachable n1 s ∧ s.mode = .running ∧ s.rxp = true ∧ (0 : Nat) < n1.size :=
  ⟨_, .next (.next (.next (.start [0x000005A1, 0x00000007, 0x00000119]) rfl) rfl) rfl, rfl, rfl, by decide⟩

theorem witness_ContractMeansNoFault : ∃ s t, ContractReachable n1 s ∧ exec .rxh s = .next t := by
  refine ⟨_, _, .label .arm (.label (.wrout 0 0x5A) (.label (.rxrdy 0x11) (.start []) ?_ rfl) ?_ rfl) ?_ rfl, rfl⟩
  · exact rfl
  · exact ⟨by decide, rfl⟩
  · refine ⟨rfl, fun k hk => ?_⟩
    have : k = 0 := Nat.lt_one_iff.mp hk
    subst this
    decide

theorem witness_AdvanceWrapsAtN : (0 : Half).toNat < n1.size ∧ (65535 : Half).toNat < nMax.size := by decide

/-- For ReceiveCaptureLaw and TransmitOrderLaw: one frame of N = 1 each way, after RESET. -/
theorem witness_laws_one_event :
    ∃ t, runLabels [.reset, .wrout 0 0x5A, .arm, .rxrdy 0x11, .rxh, .txrdy, .txh] (State.start n1) = some t ∧
      t.fault = none ∧ Instr.reset ∉ [.wrout 0 0x5A, .arm, .rxrdy 0x11, .rxh, .txrdy, .txh] := ⟨_, rfl, rfl, by decide⟩
/-- For the same: k = 2 > N = 1, so the first byte has been overwritten (i = 1 is the largest with i mod N = 0). -/
theorem witness_laws_overwritten :
    ∃ t, runLabels [.reset, .wrout 0 0x5A, .arm, .rxrdy 0x11, .rxh, .rxrdy 0x22, .rxh] (State.start n1) = some t ∧
      t.fault = none ∧ Instr.reset ∉ [.wrout 0 0x5A, .arm, .rxrdy 0x11, .rxh, .rxrdy 0x22, .rxh] ∧
      (1 : Nat) < [Instr.wrout 0 0x5A, .arm, .rxrdy 0x11, .rxh, .rxrdy 0x22, .rxh].count .rxh ∧
      ∀ i' < 2, i' % n1.size = 1 % n1.size → i' ≤ 1 := ⟨_, rfl, rfl, by decide, by decide, by decide⟩
theorem witness_laws_slot_not_reached :
    ∃ t, runLabels [.reset] fresh = some t ∧ t.fault = none ∧ (2 : Nat) < fresh.frame.size ∧ ([] : List Instr).count .rxh ≤ 2 :=
  ⟨_, rfl, rfl, by decide, by decide⟩

theorem witness_SingleBytePingPong :
    ({ armed1 with txp := true, rxp := true, rxd := .written 0x22 } : State).Inv ∧ armed1.frame.size = 1 ∧
      enabled .txh { armed1 with txp := true } = true ∧
      enabled .rxh { armed1 with rxp := true, rxd := .written 0x22 } = true := by decide

theorem witness_BootSequenceArms : fresh.fault = none ∧ ([0x10, 0x20, 0x30] : List Byte).length = fresh.frame.size := by
  decide
theorem witness_PseudoEventsRunAtOnce :
    armed.Inv ∧ armed.fault = none ∧ armed.mode = .running ∧ armed.txp = false ∧ armed.rxp = false := by decide
theorem witness_ScriptRunsItsLabels :
    ∃ t, ({ seeded with script := [0x00000007, 0x00000008] } : State).script = [Instr.arm, .txrdy].map encode ++ [] ∧
      runLabels [.arm, .txrdy] seeded = some t := ⟨_, by decide, rfl⟩

/-- The state of the endless run below at 2 m (an event pending) and at 2 m + 1 (none pending). -/
def streamState (k : Nat) : State :=
  { armed1 with txp := k % 2 == 0, txlog := List.replicate ((k + 1) / 2) 0x5A }

theorem streamState_taken (k : Nat) :
    exec (if k % 2 = 0 then .txh else .txrdy) (streamState k) = .next (streamState (k + 1)) := by
  rcases Nat.mod_two_eq_zero_or_one k with h | h
  · have h1 : (k + 1) % 2 = 1 := by omega
    have h2 : (k + 1 + 1) / 2 = (k + 1) / 2 + 1 := by omega
    simp only [streamState, h, h1, h2, List.replicate_succ']
    rfl
  · have h1 : (k + 1) % 2 = 0 := by omega
    have h2 : (k + 1 + 1) / 2 = (k + 1) / 2 := by omega
    simp only [streamState, h, h1, h2]
    rfl

/-- N = 1: TXH and TXRDY in turn, for ever. -/
def stream : EndlessRun :=
  { state := streamState, label := fun k => if k % 2 = 0 then .txh else .txrdy, taken := streamState_taken }

theorem witness_StreamContinuesUnderAutoRepeat :
    (∀ k, (stream.state k).fault = none) ∧ (stream.state 0).mode = .running ∧ (stream.state 0).txp = true ∧
      (∀ k, stream.label k ≠ .reset) ∧ stream.autoRepeat ∧ stream.weaklyFair .txh := by
  refine ⟨fun _ => rfl, rfl, rfl, fun k => ?_, fun k hk => ⟨k + 1, Nat.lt_succ_self k, ?_⟩, fun k _ => ?_⟩
  · show (if k % 2 = 0 then Instr.txh else .txrdy) ≠ .reset
    split <;> simp
  · have h : k % 2 = 0 := by
      by_contra h
      simp [stream, h] at hk
    show (if (k + 1) % 2 = 0 then Instr.txh else .txrdy) = .txrdy
    rw [if_neg (by omega)]
  · rcases Nat.mod_two_eq_zero_or_one k with h | h
    · exact ⟨k, Nat.le_refl k, if_pos h⟩
    · exact ⟨k + 1, Nat.le_succ k, if_pos (by omega)⟩

/-- For AssemblerRefusesBadOperands: operands at the two ends of each range, counts on both sides, a sixteenth name. -/
theorem witness_Assembler_ranges : (65535 ≤ 65535 ∧ 65535 < 65536) ∧ (255 ≤ 255 ∧ 255 < 256) := by decide
theorem witness_Assembler_seed :
    ([0, 255, 7] : List Nat).length = n3.size ∧ (∀ d ∈ [0, 255, 7], d ≤ 255) ∧ ∃ d ∈ [0, 256, 7], 255 < d := by decide
theorem witness_Assembler_counts :
    ([] : List Nat).length ≠ 1 ∧ ([1] : List Nat).length ≠ 0 ∧ ([1] : List Nat).length ≠ 2 ∧
      ([1, 2] : List Nat).length ≠ n3.size := by decide
theorem witness_Assembler_unknown :
    "WRIN" ∉ ["WROUT", "RDOUT", "RDIN", "RDSTAT", "RDTXC", "RDRXC", "ARM", "TXRDY", "RXRDY", "TXH", "RXH", "RESET", "SEED",
      "TXEV", "RXEV"] := by decide

end Sys2Proof.Tests
end

section
/-!
PROOF. What a label of each agent may write (00_scope.md R8, 60_exceptions.md R120), read off `exec_next` once; that
no label touches N or the script (log entries 1 and 2) and that a step takes one word follow from it.
-/

namespace Sys2Proof.Machine

/-- t differs from s at most in what a label of the agent writes. Every agent may record a fault. -/
def AgentFrame (a : Agent) (s t : State) : Prop :=
  match a with
  | .host   => t = { s with outBuf := t.outBuf, mode := t.mode, fault := t.fault, results := t.results }
  | .periph => t = { s with txp := t.txp, rxp := t.rxp, rxd := t.rxd, fault := t.fault }
  | .engine =>
    t = { s with
          inBuf := t.inBuf, txc := t.txc, rxc := t.rxc, txp := t.txp, rxp := t.rxp, rxd := t.rxd, txlog := t.txlog,
          fault := t.fault }
  | .reset  =>
    t = { s with
          outBuf := t.outBuf, inBuf := t.inBuf, txc := t.txc, rxc := t.rxc, mode := t.mode, txp := t.txp,
          rxp := t.rxp, rxd := t.rxd, fault := t.fault }

theorem agentFrame_record (a : Agent) (c : FaultCode) (w : Word) (s : State) : AgentFrame a s (s.record c w) := by
  cases a <;> rfl

theorem agentFrame_of_effect {i : Instr} {s t : State} (h : Effect i s t) : AgentFrame (agentOf i) s t := by
  cases i with
  | wrout idx data =>
    obtain ⟨-, -, rfl⟩ := h
    rfl
  | rdout idx =>
    obtain ⟨-, b, -, rfl⟩ := h
    rfl
  | rdin idx =>
    obtain ⟨-, b, -, rfl⟩ := h
    rfl
  | rdstat | rdtxc | rdrxc | reset =>
    obtain rfl := h
    rfl
  | arm =>
    obtain ⟨-, -, rfl⟩ := h
    rfl
  | txrdy =>
    obtain ⟨-, rfl⟩ := h
    rfl
  | rxrdy data =>
    obtain ⟨-, rfl⟩ := h
    rfl
  | txh =>
    obtain ⟨-, -, -, b, -, rfl⟩ := h
    rfl
  | rxh =>
    obtain ⟨-, -, -, b, -, rfl⟩ := h
    rfl

theorem exec_agentFrame {i : Instr} {s t : State} (h : exec i s = .next t) : AgentFrame (agentOf i) s t := by
  obtain ⟨-, ⟨c, rfl⟩ | he⟩ := exec_next h
  · exact agentFrame_record _ c _ s
  · exact agentFrame_of_effect he

theorem AgentFrame.frame_eq {a : Agent} {s t : State} (h : AgentFrame a s t) : t.frame = s.frame := by
  cases a <;> exact (congrArg State.frame h :)

theorem AgentFrame.script_eq {a : Agent} {s t : State} (h : AgentFrame a s t) : t.script = s.script := by
  cases a <;> exact (congrArg State.script h :)

/-- Settles O35: each label's frame is its agent's, and no agent's frame holds N or the script. -/
theorem eachAgentKeepsToItsState : Obligations.EachAgentKeepsToItsState := by
  intro i s t h
  have hf := exec_agentFrame h
  refine ⟨fun ha => ?_, fun ha => ?_, fun ha => ?_, hf.frame_eq, hf.script_eq⟩
  · rw [ha] at hf
    exact hf
  · rw [ha] at hf
    exact hf
  · rw [ha] at hf
    exact ⟨(congrArg State.outBuf hf :), (congrArg State.mode hf :), (congrArg State.results hf :)⟩

theorem takeWord_keeps_script_and_frame {w : Word} {s t : State} (h : takeWord w s = .next t) :
    t.script = s.script ∧ t.frame = s.frame := by
  obtain ⟨-, ⟨i, -, he⟩ | ⟨e, -, rfl⟩⟩ := takeWord_next h
  · have hf := exec_agentFrame he
    exact ⟨hf.script_eq, hf.frame_eq⟩
  · exact ⟨rfl, rfl⟩

/-- Settles O16: with no word the machine waits unchanged; else the head of the script leaves it before the word is
taken, and taking a word keeps the script and N. -/
theorem stepTakesOneWordAndKeepsN : Obligations.StepTakesOneWordAndKeepsN := by
  intro s t h
  obtain ⟨-, ⟨hs, rfl⟩ | ⟨w, ws, hs, hw⟩⟩ := step_next h
  · simp [hs]
  · simpa [hs] using takeWord_keeps_script_and_frame hw

end Sys2Proof.Machine
end

section
/-!
PROOF. The machine's invariant (10_state.md R32 to R34, 40_transfer_buffers.md R37): it reads eight fields of the state,
so an update of the others keeps it at once, and each update of those eight keeps it under the tests of its label.
-/

namespace Sys2Proof.Machine

theorem Cell.ne_unwritten_iff (c : Cell) : c ≠ .unwritten ↔ ∃ b, c = .written b := by
  cases c <;> simp

/-- The cursor step stays in range (R75): N is at least 1. -/
theorem advance_lt {n : FrameSize} {c : Half} (h : c.toNat < n.size) : (advance n c).toNat < n.size := by
  have := n.pos
  rw [advance_toNat h]
  split <;> omega

theorem inv_record {s : State} (h : s.Inv) (c : FaultCode) (w : Word) : (s.record c w).Inv := h

theorem inv_answer {s : State} (h : s.Inv) (r : HostResult) : (s.answer r).Inv := h

theorem inv_withScript {s : State} (h : s.Inv) (ws : List Word) : (s.withScript ws).Inv := h

theorem inv_latchTx {s : State} (h : s.Inv) : s.latchTx.Inv := h

theorem inv_start (n : FrameSize) : (State.start n).Inv :=
  ⟨⟨n.pos, n.pos⟩, by simp [State.seededWhenRunning], by simp [State.latchAgrees], ⟨.nil, .nil⟩, by simp, by simp⟩

theorem inv_clear (s : State) : s.clear.Inv := inv_start s.frame

/-- In Idle nothing is claimed of OUT's content, so only the form and the bound of OUT are at stake. -/
theorem inv_writeOut {s : State} (h : s.Inv) (hm : s.mode = .idle) {i : Nat} (hi : i < s.frame.size) (b : Byte) :
    (s.writeOut i b).Inv := by
  obtain ⟨hc, -, hl, ⟨hwo, hwi⟩, hno, hni⟩ := h
  have hs : (s.writeOut i b).seededWhenRunning := by simp [hm]
  exact ⟨hc, hs, hl, ⟨Memory.write_wf hwo i b, hwi⟩, Memory.write_within hno hi b, hni⟩

/-- ARM's test of OUT is what Running asks for. -/
theorem inv_enableEvents {s : State} (h : s.Inv) (ha : s.outBuf.allWritten s.frame.size = true) : s.enableEvents.Inv := by
  obtain ⟨hc, -, hl, hw⟩ := h
  exact ⟨hc, fun _ => (Memory.allWritten_iff _ _).mp ha, hl, hw⟩

theorem inv_latchRx {s : State} (h : s.Inv) (b : Byte) : (s.latchRx b).Inv := by
  obtain ⟨hc, hs, -, hw⟩ := h
  exact ⟨hc, hs, by simp [State.latchAgrees], hw⟩

theorem inv_transmit {s : State} (h : s.Inv) (b : Byte) : (s.send b).ackTx.advanceTx.Inv := by
  obtain ⟨⟨ht, hr⟩, hrest⟩ := h
  exact ⟨⟨advance_lt ht, hr⟩, hrest⟩

theorem inv_receive {s : State} (h : s.Inv) (b : Byte) : (s.currentIn b).ackRx.advanceRx.Inv := by
  obtain ⟨⟨ht, hr⟩, hs, -, ⟨hwo, hwi⟩, hno, hni⟩ := h
  exact ⟨⟨ht, advance_lt hr⟩, hs, by simp [State.latchAgrees], ⟨hwo, Memory.write_wf hwi _ b⟩, hno,
    Memory.write_within hni hr b⟩

theorem inv_of_effect {i : Instr} {s t : State} (hinv : s.Inv) (h : Effect i s t) : t.Inv := by
  cases i with
  | wrout idx data =>
    obtain ⟨hi, hm, rfl⟩ := h
    exact inv_writeOut hinv hm hi data
  | rdout idx =>
    obtain ⟨-, b, -, rfl⟩ := h
    exact inv_answer hinv _
  | rdin idx =>
    obtain ⟨-, b, -, rfl⟩ := h
    exact inv_answer hinv _
  | rdstat | rdtxc | rdrxc =>
    obtain rfl := h
    exact inv_answer hinv _
  | arm =>
    obtain ⟨-, ha, rfl⟩ := h
    exact inv_enableEvents hinv ha
  | txrdy =>
    obtain ⟨-, rfl⟩ := h
    exact inv_latchTx hinv
  | rxrdy data =>
    obtain ⟨-, rfl⟩ := h
    exact inv_latchRx hinv data
  | txh =>
    obtain ⟨-, -, -, b, -, rfl⟩ := h
    exact inv_transmit hinv b
  | rxh =>
    obtain ⟨-, -, -, b, -, rfl⟩ := h
    exact inv_receive hinv b
  | reset =>
    obtain rfl := h
    exact inv_clear s

theorem exec_keeps_inv {i : Instr} {s t : State} (hinv : s.Inv) (h : exec i s = .next t) : t.Inv := by
  obtain ⟨-, ⟨c, rfl⟩ | he⟩ := exec_next h
  · exact inv_record hinv c _
  · exact inv_of_effect hinv he

theorem takeWord_keeps_inv {w : Word} {s t : State} (hinv : s.Inv) (h : takeWord w s = .next t) : t.Inv := by
  obtain ⟨-, ⟨i, -, he⟩ | ⟨e, -, rfl⟩⟩ := takeWord_next h
  · exact exec_keeps_inv hinv he
  · exact inv_record hinv _ w

/-- Settles O42: a step waits, or takes a word from the state with that word gone from its script. -/
theorem everyStepKeepsTheInvariant : Obligations.EveryStepKeepsTheInvariant := by
  intro s t hinv h
  obtain ⟨-, ⟨-, rfl⟩ | ⟨w, ws, -, hw⟩⟩ := step_next h
  · exact hinv
  · exact takeWord_keeps_inv (inv_withScript hinv ws) hw

/-- Settles O43: the invariant does not read the script, so it is that of the reset state. -/
theorem resetHasTheInvariant : Obligations.ResetHasTheInvariant :=
  ⟨fun n ws => inv_withScript (inv_start n) ws, inv_start Config.exampleFrame⟩

theorem Reachable.inv_and_frame {n : FrameSize} {s : State} (h : Reachable n s) : s.Inv ∧ s.frame = n := by
  induction h with
  | start ws => exact ⟨resetHasTheInvariant.1 n ws, rfl⟩
  | next _ hs ih =>
    obtain ⟨hinv, hn⟩ := ih
    exact ⟨everyStepKeepsTheInvariant _ _ hinv hs, (stepTakesOneWordAndKeepsN _ _ hs).2.trans hn⟩

/-- Settles O44, as the invariant's first part. -/
theorem cursorsStayBelowN : Obligations.CursorsStayBelowN := by
  intro n s h
  obtain ⟨⟨hc, -⟩, rfl⟩ := h.inv_and_frame
  exact hc

/-- Settles O45, as the invariant's second part. -/
theorem runningMeansSeeded : Obligations.RunningMeansSeeded := by
  intro n s h hm i hi
  obtain ⟨⟨-, hs, -⟩, rfl⟩ := h.inv_and_frame
  exact (Cell.ne_unwritten_iff _).mp (hs hm i hi)

/-- Settles O46, as the invariant's third part. -/
theorem latchIsWrittenWhenPending : Obligations.LatchIsWrittenWhenPending := by
  intro n s h
  obtain ⟨⟨-, -, hl, -⟩, -⟩ := h.inv_and_frame
  exact hl.trans (Cell.ne_unwritten_iff _)

end Sys2Proof.Machine
end

section
/-!
PROOF. Which labels may change each piece of state (10_state.md R18, R28, R35), read off what each label does without a
fault; a label that faults changes none of them (60_exceptions.md R111).
-/

namespace Sys2Proof.Machine

/-- Settles O34: label by label, the pieces that its update leaves in place drop out, and the label is a writer of each
piece that is left. -/
theorem eachPieceHasItsWriters : Obligations.EachPieceHasItsWriters := by
  intro i s t h
  obtain ⟨-, ⟨c, rfl⟩ | he⟩ := exec_next h
  · simp +contextual
  · cases i with
    | wrout idx data =>
      obtain ⟨-, hm, rfl⟩ := he
      simp [hm]
    | rdout idx =>
      obtain ⟨-, b, -, rfl⟩ := he
      simp
    | rdin idx =>
      obtain ⟨-, b, -, rfl⟩ := he
      simp
    | rdstat | rdtxc | rdrxc | reset =>
      obtain rfl := he
      simp
    | arm =>
      obtain ⟨-, -, rfl⟩ := he
      simp
    | txrdy =>
      obtain ⟨-, rfl⟩ := he
      simp
    | rxrdy data =>
      obtain ⟨-, rfl⟩ := he
      simp
    | txh =>
      obtain ⟨-, -, -, b, -, rfl⟩ := he
      simp
    | rxh =>
      obtain ⟨-, -, -, b, -, rfl⟩ := he
      simp

theorem exec_arm_running_keeps_mode {s t : State} (h : exec .arm s = .next t) (hm : s.mode = .running) :
    t.mode = .running := by
  obtain ⟨-, ⟨c, rfl⟩ | ⟨-, -, rfl⟩⟩ := exec_next h
  · exact hm
  · rfl

theorem exec_reset_mode {s t : State} (h : exec .reset s = .next t) : t.mode = .idle := by
  obtain ⟨-, rfl⟩ := execReset_next h
  rfl

/-- Settles O32: MODE's writers are RESET and ARM (R35), RESET ends in Idle, and ARM never leaves Running. -/
theorem modeMovesOnlyByArmAndReset : Obligations.ModeMovesOnlyByArmAndReset := by
  intro i s t h
  obtain ⟨-, -, -, -, hmode, -⟩ := eachPieceHasItsWriters i s t h
  refine ⟨fun hs ht => ?_, fun hs ht => ?_⟩
  · rcases hmode (by simp [hs, ht]) with rfl | rfl
    · simp [exec_reset_mode h] at ht
    · rfl
  · rcases hmode (by simp [hs, ht]) with rfl | rfl
    · rfl
    · simp [exec_arm_running_keeps_mode h hs] at ht

theorem AgentFrame.txlog_eq {a : Agent} {s t : State} (h : AgentFrame a s t) (ha : a ≠ .engine) : t.txlog = s.txlog := by
  cases a with
  | engine => exact absurd rfl ha
  | host | periph | reset => exact (congrArg State.txlog h :)

theorem exec_rxh_keeps_txlog {s t : State} (h : exec .rxh s = .next t) : t.txlog = s.txlog := by
  obtain ⟨-, -, -, -, b, -, rfl⟩ := execRxh_next h
  rfl

theorem exec_txh_appends {s t : State} (h : exec .txh s = .next t) (hf : t.fault = none) :
    ∃ b, s.currentOut = .written b ∧ t.txlog = s.txlog ++ [b] := by
  obtain ⟨-, -, -, -, ⟨-, rfl⟩ | ⟨b, hb, rfl⟩⟩ := execTxh_next h
  · simp at hf
  · exact ⟨b, hb, rfl⟩

theorem eq_txh_or_rxh_of_engine {i : Instr} (h : agentOf i = .engine) : i = .txh ∨ i = .rxh := by
  cases i <;> simp [agentOf] at h ⊢

/-- Settles O33: only the ENGINE's frame holds TXLOG, and RXH leaves it alone. -/
theorem txlogGrowsOnlyByTxh : Obligations.TxlogGrowsOnlyByTxh := by
  intro i s t h
  refine ⟨fun hi => ?_, ?_⟩
  · by_cases ha : agentOf i = .engine
    · obtain rfl := (eq_txh_or_rxh_of_engine ha).resolve_left hi
      exact exec_rxh_keeps_txlog h
    · exact (exec_agentFrame h).txlog_eq ha
  · rintro rfl hf
    obtain ⟨b, -, ht⟩ := exec_txh_appends h hf
    exact ⟨b, ht⟩

end Sys2Proof.Machine
end

section
/-!
PROOF. What a label answers: stuck once FAULT is set (60_exceptions.md R111), the handlers' four outcomes
(41_duplex_engine.md R89, R90), the host's status byte (10_state.md R26) and RESET (R36).
-/

namespace Sys2Proof.Machine

theorem exec_faulted {s : State} (h : s.fault ≠ none) (i : Instr) : exec i s = .fault .quiescent := by
  cases i <;> exact whenLive_faulted h _

theorem step_faulted {s : State} (h : s.fault ≠ none) : step s = .fault .quiescent := by
  unfold step
  split <;> exact whenLive_faulted h _

/-- Settles O12: every label's meaning, the decoder and the wait stand behind the one test of FAULT. -/
theorem faultedMachineIsStuck : Obligations.FaultedMachineIsStuck :=
  fun _ h => ⟨exec_faulted h, step_faulted h⟩

theorem step_of_script_cons {s : State} {w : Word} {ws : List Word} (h : s.script = w :: ws) :
    step s = takeWord w (s.withScript ws) := by
  simp [step, h]

theorem takeWord_of_decode {w : Word} {i : Instr} {s : State} (hl : s.fault = none) (h : decode w = .ok i) :
    takeWord w s = exec i s := by
  simp [takeWord, hl, h]

/-- Settles O8: the word leaves the script, and then decodes. -/
theorem stepTakesTheDecodedLabel : Obligations.StepTakesTheDecodedLabel :=
  fun s _ ws _ hl hs hd => (step_of_script_cons hs).trans (takeWord_of_decode (s := s.withScript ws) hl hd)

theorem withCursor_outside {c : Half} {s : State} (h : s.frame.size ≤ c.toNat) (k : StepResult) :
    withCursor c s k = .fault .cursorOutOfRange := if_neg (Nat.not_lt.mpr h)

theorem withLatch_unwritten {s : State} (h : s.rxd = .unwritten) (k : Byte → StepResult) :
    withLatch s k = .fault .latchUnwritten := by
  simp [withLatch, h]

/-- The cursor step in 16 bits; at N = 65536 the last cursor is caught by the test. -/
theorem advance_eq (n : FrameSize) (c : Half) : advance n c = if c.toNat + 1 = n.size then 0 else c + 1 := by
  simp [advance, BitVec.ofNat_add]

section
variable {s : State} (hl : s.fault = none)
include hl

theorem exec_txh_notEnabled (h : ¬ (s.mode = .running ∧ s.txp = true)) : exec .txh s = .fault .notEnabled := by
  have hg : s.txhGuard = false := Bool.eq_false_iff.mpr (mt s.txhGuard_iff.mp h)
  simp [exec, execTxh, hl, hg, whenEnabled]

theorem exec_rxh_notEnabled (h : ¬ (s.mode = .running ∧ s.rxp = true)) : exec .rxh s = .fault .notEnabled := by
  have hg : s.rxhGuard = false := Bool.eq_false_iff.mpr (mt s.rxhGuard_iff.mp h)
  simp [exec, execRxh, hl, hg, whenEnabled]

theorem exec_txh_enabled (hm : s.mode = .running) (hp : s.txp = true) :
    exec .txh s = withCursor s.txc s (
      withByte s.currentOut .unwrittenSend (encode .txh) s (fun b => .next (s.send b).ackTx.advanceTx)) := by
  simp [exec, execTxh, hl, s.txhGuard_iff.mpr ⟨hm, hp⟩]

theorem exec_rxh_enabled (hm : s.mode = .running) (hp : s.rxp = true) :
    exec .rxh s = withCursor s.rxc s (withLatch s (fun b => .next (s.currentIn b).ackRx.advanceRx)) := by
  simp [exec, execRxh, hl, s.rxhGuard_iff.mpr ⟨hm, hp⟩]

theorem exec_txh_unwritten (hm : s.mode = .running) (hp : s.txp = true) (hc : s.txc.toNat < s.frame.size)
    (hb : s.currentOut = .unwritten) : exec .txh s = .next (s.record .unwrittenSend (encode .txh)) := by
  rw [exec_txh_enabled hl hm hp, withCursor_inside hc, hb]
  rfl

theorem exec_txh_sends (hm : s.mode = .running) (hp : s.txp = true) (hc : s.txc.toNat < s.frame.size) {b : Byte}
    (hb : s.currentOut = .written b) : exec .txh s = .next (s.send b).ackTx.advanceTx := by
  rw [exec_txh_enabled hl hm hp, withCursor_inside hc, hb, withByte_written]

theorem exec_rxh_stores (hm : s.mode = .running) (hp : s.rxp = true) (hc : s.rxc.toNat < s.frame.size) {b : Byte}
    (hb : s.rxd = .written b) : exec .rxh s = .next (s.currentIn b).ackRx.advanceRx := by
  rw [exec_rxh_enabled hl hm hp, withCursor_inside hc, withLatch_written hb]

end

/-- Settles O26: TXH's three outcomes with its cursor in range. -/
theorem txhSendsTheCurrentByte : Obligations.TxhSendsTheCurrentByte := by
  intro s hl
  refine ⟨exec_txh_notEnabled hl, exec_txh_unwritten hl, fun b hm hp hc hb => ?_⟩
  rw [exec_txh_sends hl hm hp hc hb, ← advance_eq]
  rfl

/-- Settles O27: RXH's two outcomes, and a slot's content after a write to it and to another slot. -/
theorem rxhStoresTheReceivedByte : Obligations.RxhStoresTheReceivedByte := by
  intro s hl
  refine ⟨exec_rxh_notEnabled hl, fun b hm hp hc hb => ⟨_, exec_rxh_stores hl hm hp hc hb, ?_, fun j hj => ?_, ?_⟩⟩
  · exact Memory.read_write_same _ _ b
  · exact Memory.read_write_other _ b hj
  · rw [← advance_eq]
    rfl

/-- Settles O28: an enabled handler tests its cursor, and RXH then its latch. -/
theorem handlersStopOutsideTheInvariant : Obligations.HandlersStopOutsideTheInvariant := by
  intro s hl hm
  refine ⟨fun hp hc => ?_, fun hp hc => ?_, fun hp hc hd => ?_⟩
  · rw [exec_txh_enabled hl hm hp, withCursor_outside hc]
  · rw [exec_rxh_enabled hl hm hp, withCursor_outside hc]
  · rw [exec_rxh_enabled hl hm hp, withCursor_inside hc, withLatch_unwritten hd]

theorem State.statusByte_getLsbD (s : State) (k : Nat) :
    s.statusByte.getLsbD k = (k == 0 && s.runBit || k == 1 && s.txp || k == 2 && s.rxp) := by
  simp only [State.statusByte, BitVec.getLsbD_setWidth, BitVec.getLsbD_append, BitVec.getLsbD_ofBool]
  rcases k with - | - | - | k <;> simp

/-- Settles O20: RDSTAT answers the status byte, whose bits are RUN, TXP and RXP by place. -/
theorem rdstatReturnsTheStatusBits : Obligations.RdstatReturnsTheStatusBits := by
  intro s hl
  have hrun : s.runBit = decide (s.mode = .running) := by rw [Bool.eq_iff_iff, s.runBit_iff, decide_eq_true_iff]
  refine ⟨s.statusByte, whenLive_live hl _, ?_, ?_, ?_, fun k hk => ?_⟩
  · simpa [hrun] using s.statusByte_getLsbD 0
  · simpa using s.statusByte_getLsbD 1
  · simpa using s.statusByte_getLsbD 2
  · have : k ≠ 0 ∧ k ≠ 1 ∧ k ≠ 2 := by omega
    simp [s.statusByte_getLsbD, this]

theorem clear_eq_start {s : State} (hl : s.fault = none) :
    s.clear = { State.start s.frame with txlog := s.txlog, results := s.results, script := s.script } := by
  simp [State.clear, State.start, hl]

/-- Settles O31: the table of R36 field by field, and RESET's assignments are that table's. -/
theorem resetStateIsTheTable : Obligations.ResetStateIsTheTable := by
  intro n
  refine ⟨fun i => ⟨rfl, rfl⟩, rfl, rfl, rfl, rfl, rfl, rfl, rfl, rfl, ?_⟩
  rintro s t rfl h
  obtain ⟨hl, rfl⟩ := execReset_next h
  exact clear_eq_start hl

end Sys2Proof.Machine
end

section
/-!
PROOF. An enabled label is taken (10_state.md R30, 41_duplex_engine.md R95): a label of the host, of the peripheral or
RESET always, because a failed test of it is a fault and a fault is a next state (60_exceptions.md R111); a handler under
the invariant, because its cursor is then in range and RXD written.
-/

namespace Sys2Proof.Machine

theorem enabled_iff (i : Instr) (s : State) :
    enabled i s = true ↔
      s.fault = none ∧ (i = .txh → s.mode = .running ∧ s.txp = true) ∧ (i = .rxh → s.mode = .running ∧ s.rxp = true) := by
  cases i <;> simp [enabled, s.txhGuard_iff, s.rxhGuard_iff]

theorem withIndex_taken (idx : Half) (w : Word) (s : State) {k : StepResult} (h : ∃ t, k = .next t) :
    ∃ t, withIndex idx w s k = .next t := by
  unfold withIndex
  split
  · exact h
  · exact ⟨_, rfl⟩

theorem withByte_taken (c : Cell) (code : FaultCode) (w : Word) (s : State) {k : Byte → StepResult}
    (h : ∀ b, ∃ t, k b = .next t) : ∃ t, withByte c code w s k = .next t := by
  cases c with
  | written b => exact h b
  | unwritten => exact ⟨_, rfl⟩

theorem exec_taken_of_not_engine {i : Instr} {s : State} (hl : s.fault = none) (ha : agentOf i ≠ .engine) :
    ∃ t, exec i s = .next t := by
  cases i with
  | wrout idx data =>
    simp only [exec, execWrout, whenLive_live hl]
    refine withIndex_taken _ _ _ ?_
    split <;> exact ⟨_, rfl⟩
  | rdout idx =>
    simp only [exec, execRdout, whenLive_live hl]
    exact withIndex_taken _ _ _ (withByte_taken _ _ _ _ fun _ => ⟨_, rfl⟩)
  | rdin idx =>
    simp only [exec, execRdin, whenLive_live hl]
    exact withIndex_taken _ _ _ (withByte_taken _ _ _ _ fun _ => ⟨_, rfl⟩)
  | rdstat | rdtxc | rdrxc | reset => exact ⟨_, whenLive_live hl _⟩
  | arm =>
    simp only [exec, execArm, whenLive_live hl]
    split
    · exact ⟨_, rfl⟩
    · split <;> exact ⟨_, rfl⟩
  | txrdy =>
    simp only [exec, execTxrdy, whenLive_live hl]
    split <;> exact ⟨_, rfl⟩
  | rxrdy data =>
    simp only [exec, execRxrdy, whenLive_live hl]
    split <;> exact ⟨_, rfl⟩
  | txh | rxh => exact absurd rfl ha

theorem exec_txh_taken {s : State} (hinv : s.Inv) (hl : s.fault = none) (hm : s.mode = .running) (hp : s.txp = true) :
    ∃ t, exec .txh s = .next t := by
  obtain ⟨⟨hc, -⟩, -⟩ := hinv
  rw [exec_txh_enabled hl hm hp, withCursor_inside hc]
  exact withByte_taken _ _ _ _ fun _ => ⟨_, rfl⟩

theorem exec_rxh_taken {s : State} (hinv : s.Inv) (hl : s.fault = none) (hm : s.mode = .running) (hp : s.rxp = true) :
    ∃ t, exec .rxh s = .next t := by
  obtain ⟨⟨-, hc⟩, -, hd, -⟩ := hinv
  obtain ⟨b, hb⟩ := (Cell.ne_unwritten_iff _).mp (hd.mp hp)
  exact ⟨_, exec_rxh_stores hl hm hp hc hb⟩

theorem exec_taken_of_enabled {i : Instr} {s : State} (hinv : s.Inv) (h : enabled i s = true) :
    ∃ t, exec i s = .next t := by
  obtain ⟨hl, htx, hrx⟩ := (enabled_iff i s).mp h
  by_cases ha : agentOf i = .engine
  · rcases eq_txh_or_rxh_of_engine ha with rfl | rfl
    · exact exec_txh_taken hinv hl (htx rfl).1 (htx rfl).2
    · exact exec_rxh_taken hinv hl (hrx rfl).1 (hrx rfl).2
  · exact exec_taken_of_not_engine hl ha

/-- Only FAULT and a handler's guard disable a label. -/
theorem exec_stuck_of_not_enabled {i : Instr} {s : State} (h : enabled i s = false) :
    exec i s = .fault .quiescent ∨ exec i s = .fault .notEnabled := by
  by_cases hl : s.fault = none
  · have hg := mt (enabled_iff i s).mpr (Bool.eq_false_iff.mp h)
    right
    rcases eq_or_ne i .txh with rfl | htx
    · exact exec_txh_notEnabled hl fun g => hg ⟨hl, fun _ => g, nofun⟩
    · rcases eq_or_ne i .rxh with rfl | hrx
      · exact exec_rxh_notEnabled hl fun g => hg ⟨hl, nofun, fun _ => g⟩
      · exact absurd ⟨hl, fun e => absurd e htx, fun e => absurd e hrx⟩ hg
  · exact .inl (exec_faulted hl i)

/-- Settles O38: an enabled handler has its cursor and its latch from the invariant, and every other label needs no more
than that FAULT is none. -/
theorem enabledLabelsAreTaken : Obligations.EnabledLabelsAreTaken :=
  fun i s hinv => ⟨exec_taken_of_enabled hinv, exec_stuck_of_not_enabled, enabled_iff i s⟩

end Sys2Proof.Machine
end

section
/-!
PROOF. A script of encoded labels (10_state.md R30, R31; 30_encoding.md R65, R70): each word decodes to its label, and a
label does the same whatever stands in the script after it.
-/

namespace Sys2Proof

/-- Decoding the word of R70 tests its own four fields; RSV is 0. -/
theorem decode_packWord (idx : Half) (data : Byte) (op : BitVec 4) :
    decode (packWord idx data op) =
      if op = 0x0 ∨ op = 0xC ∨ op = 0xD ∨ op = 0xE then .error .illegalOp
      else if ¬ (op = 0x1 ∨ op = 0x9) ∧ data ≠ 0 then .error .reservedField
      else if ¬ (op = 0x1 ∨ op = 0x2 ∨ op = 0x3) ∧ idx ≠ 0 then .error .reservedField
      else labelOf op idx data := by
  have h := Laws.fieldsOf_packWord idx data op
  simp only [fieldsOf, Fields.mk.injEq] at h
  obtain ⟨hidx, hrsv, hdata, hop⟩ := h
  simp [decode, hidx, hrsv, hdata, hop]

theorem decode_encode (i : Instr) : decode (encode i) = .ok i := by
  cases i <;> simp [encode, decode_packWord, labelOf]

end Sys2Proof

namespace Sys2Proof.Machine

theorem runLabels_cons_iff {i : Instr} {is : List Instr} {s t : State} :
    runLabels (i :: is) s = some t ↔ ∃ u, exec i s = .next u ∧ runLabels is u = some t := by
  rw [runLabels]
  cases exec i s <;> simp

theorem run_succ_of_step {k : Nat} {s u : State} (h : step s = .next u) :
    Host.Core.run core (k + 1) s = Host.Core.run core k u := by
  have hc : core.step s = .next u := h
  simp [Host.Core.run, hc]

/-- A label taken with the words ws after it is taken from the script in which its own word comes first. -/
theorem step_of_exec {i : Instr} {ws ws' : List Word} {s u : State} (hs : s.script = encode i :: ws)
    (h : exec i (s.withScript ws') = .next u) : step s = .next (u.withScript ws) := by
  have hl : s.fault = none := (exec_next h).1
  have he : exec i (s.withScript ws) = .next (u.withScript ws) := exec_withScript (s := s.withScript ws') ws h
  rw [stepTakesTheDecodedLabel s _ ws i hl hs (decode_encode i)]
  exact he

/-- Settles O55, by induction on the labels: the state after each one differs from the state of the labels' own run in
the words still to be taken alone. -/
theorem scriptRunsItsLabels : Obligations.ScriptRunsItsLabels := by
  intro ls ws
  induction ls with
  | nil =>
    intro s t hs h
    obtain rfl : s.script = ws := hs
    exact congrArg Host.Outcome.next (Option.some.inj h)
  | cons i is ih =>
    intro s t hs h
    obtain ⟨u, hu, hrun⟩ := runLabels_cons_iff.mp h
    have hscript : u.script = ws := (exec_agentFrame hu).script_eq
    refine (run_succ_of_step (step_of_exec hs hu)).trans (ih _ t rfl ?_)
    subst hscript
    exact hrun

end Sys2Proof.Machine
end

section
/-!
PROOF. The host's reads and labels taken twice in a row (20_memory.md R45, R46). A host read answers and changes nothing
that a label reads, so taken again it answers the same; of the other labels none answers.
-/

namespace Sys2Proof.Machine

/-- The converse of `exec_next` for a label taken without a fault. -/
theorem exec_of_effect {i : Instr} {s t : State} (hl : s.fault = none) (h : Effect i s t) : exec i s = .next t := by
  cases i with
  | wrout idx data =>
    obtain ⟨hi, hm, rfl⟩ := h
    simp [exec, execWrout, hl, hi, hm]
  | rdout idx =>
    obtain ⟨hi, b, hb, rfl⟩ := h
    simp [exec, execRdout, hl, hi, hb, hostReturn]
  | rdin idx =>
    obtain ⟨hi, b, hb, rfl⟩ := h
    simp [exec, execRdin, hl, hi, hb, hostReturn]
  | rdstat | rdtxc | rdrxc | reset =>
    obtain rfl := h
    exact whenLive_live hl _
  | arm =>
    obtain ⟨hm, ha, rfl⟩ := h
    simp [exec, execArm, hl, hm, ha]
  | txrdy =>
    obtain ⟨hp, rfl⟩ := h
    simp [exec, execTxrdy, hl, hp]
  | rxrdy data =>
    obtain ⟨hp, rfl⟩ := h
    simp [exec, execRxrdy, hl, hp]
  | txh =>
    obtain ⟨hm, hp, hc, b, hb, rfl⟩ := h
    exact exec_txh_sends hl hm hp hc hb
  | rxh =>
    obtain ⟨hm, hp, hc, b, hb, rfl⟩ := h
    exact exec_rxh_stores hl hm hp hc hb

/-- A label taken into a state without a fault has had its effect. -/
theorem effect_of_exec {i : Instr} {s t : State} (h : exec i s = .next t) (hf : t.fault = none) : Effect i s t := by
  obtain ⟨-, ⟨c, rfl⟩ | he⟩ := exec_next h
  · cases hf
  · exact he

/-- The labels whose result the host is given: its three views of the registers (R26) and its two buffer reads. -/
def IsHostRead (i : Instr) : Prop := (∃ idx, i = .rdout idx ∨ i = .rdin idx) ∨ i = .rdstat ∨ i = .rdtxc ∨ i = .rdrxc

/-- A host read answers, and with any other results recorded before it, it answers the same. -/
theorem effect_of_isHostRead {i : Instr} {s t : State} (hi : IsHostRead i) (h : Effect i s t) :
    ∃ r, t = s.answer r ∧ ∀ q, Effect i (s.answer q) ((s.answer q).answer r) := by
  rcases hi with ⟨idx, rfl | rfl⟩ | rfl | rfl | rfl
  · obtain ⟨hidx, b, hb, rfl⟩ := h
    exact ⟨_, rfl, fun _ => ⟨hidx, b, hb, rfl⟩⟩
  · obtain ⟨hidx, b, hb, rfl⟩ := h
    exact ⟨_, rfl, fun _ => ⟨hidx, b, hb, rfl⟩⟩
  · exact ⟨_, h, fun _ => rfl⟩
  · exact ⟨_, h, fun _ => rfl⟩
  · exact ⟨_, h, fun _ => rfl⟩

theorem AgentFrame.results_eq {a : Agent} {s t : State} (h : AgentFrame a s t) (ha : a ≠ .host) : t.results = s.results := by
  cases a with
  | host => exact absurd rfl ha
  | periph | engine | reset => exact (congrArg State.results h :)

theorem results_eq_of_not_isHostRead {i : Instr} {s t : State} (hi : ¬ IsHostRead i) (h : Effect i s t) :
    t.results = s.results := by
  cases i with
  | rdout idx | rdin idx | rdstat | rdtxc | rdrxc => exact absurd (by simp [IsHostRead]) hi
  | wrout idx data =>
    obtain ⟨-, -, rfl⟩ := h
    rfl
  | arm =>
    obtain ⟨-, -, rfl⟩ := h
    rfl
  | txrdy | rxrdy data | txh | rxh | reset => exact (agentFrame_of_effect h).results_eq (by simp [agentOf])

/-- Settles O36: a label records a fault or has its effect, and a host read's effect is its answer. -/
theorem hostReadsHaveNoSideEffect : Obligations.HostReadsHaveNoSideEffect := by
  intro i s t hi h
  obtain ⟨hl, hc | he⟩ := exec_next h
  · exact .inr hc
  · obtain ⟨r, rfl, -⟩ := effect_of_isHostRead hi he
    exact .inl ⟨hl, r, rfl⟩

/-- Only a host read adds to the results, so a label that added one adds the same one again. -/
theorem exec_again_of_results {i : Instr} {s t : State} {r : HostResult} (h : exec i s = .next t)
    (hr : t.results = s.results ++ [r]) : exec i t = .next (t.answer r) := by
  obtain ⟨hl, ⟨c, rfl⟩ | he⟩ := exec_next h
  · simp at hr
  · by_cases hi : IsHostRead i
    · obtain ⟨q, rfl, hagain⟩ := effect_of_isHostRead hi he
      obtain rfl : q = r := by simpa using hr
      exact exec_of_effect hl (hagain q)
    · simp [results_eq_of_not_isHostRead hi he] at hr

theorem Memory.write_write_same (m : Memory) (i : Nat) (v : Byte) : (m.write i v).write i v = m.write i v := by
  induction m with
  | nil => simp [Memory.write]
  | cons p rest ih =>
    obtain ⟨a, b⟩ := p
    rcases Nat.lt_trichotomy i a with hlt | rfl | hgt
    · simp [Memory.write, hlt]
    · simp [Memory.write]
    · simp [Memory.write, Nat.not_lt.mpr hgt.le, hgt.ne', ih]

theorem State.writeOut_writeOut_same (i : Nat) (b : Byte) (s : State) :
    (s.writeOut i b).writeOut i b = s.writeOut i b := by
  simp [State.writeOut, Memory.write_write_same]

theorem exec_wrout_again {idx : Half} {data : Byte} {s t : State} (h : exec (.wrout idx data) s = .next t)
    (hf : t.fault = none) : exec (.wrout idx data) t = .next t := by
  obtain ⟨hi, hm, rfl⟩ := effect_of_exec h hf
  exact exec_of_effect hf ⟨hi, hm, (s.writeOut_writeOut_same idx.toNat data).symm⟩

theorem exec_txrdy_pending {s : State} (hl : s.fault = none) (hp : s.txp = true) :
    exec .txrdy s = .next (s.record .txReassert (encode .txrdy)) := by
  simp [exec, execTxrdy, hl, hp, raise]

theorem exec_rxrdy_pending {s : State} (hl : s.fault = none) (hp : s.rxp = true) (b : Byte) :
    exec (.rxrdy b) s = .next (s.record .rxOverrun (encode (.rxrdy b))) := by
  simp [exec, execRxrdy, hl, hp, raise]

/-- Settles O37: a write over the same byte is no change, a read's answer is what it reads again, and an event that is
latched is pending when it comes a second time. -/
theorem repeatedLabels : Obligations.RepeatedLabels := by
  intro s
  refine ⟨fun _ _ _ => exec_wrout_again, fun _ _ _ => exec_again_of_results, fun t h hf => ?_, fun a b t h hf => ?_⟩
  · obtain ⟨-, rfl⟩ := effect_of_exec h hf
    exact exec_txrdy_pending hf rfl
  · obtain ⟨-, rfl⟩ := effect_of_exec h hf
    exact exec_rxrdy_pending hf rfl b

end Sys2Proof.Machine
end

section
/-!
PROOF. Each handler reads and writes its own direction alone (10_state.md R52, 41_duplex_engine.md R105): in two states
that agree on it, the same test is passed with the same byte.
-/

namespace Sys2Proof.Machine

theorem txSide_eq_iff {s₁ s₂ : State} :
    s₁.txSide = s₂.txSide ↔
      s₁.frame = s₂.frame ∧ s₁.outBuf = s₂.outBuf ∧ s₁.txc = s₂.txc ∧ s₁.txp = s₂.txp ∧ s₁.txlog = s₂.txlog ∧
        s₁.mode = s₂.mode := by
  simp only [State.txSide, Prod.mk.injEq]

theorem rxSide_eq_iff {s₁ s₂ : State} :
    s₁.rxSide = s₂.rxSide ↔
      s₁.frame = s₂.frame ∧ s₁.inBuf = s₂.inBuf ∧ s₁.rxc = s₂.rxc ∧ s₁.rxp = s₂.rxp ∧ s₁.rxd = s₂.rxd ∧
        s₁.mode = s₂.mode := by
  simp only [State.rxSide, Prod.mk.injEq]

theorem exec_txh_of_txSide_eq {s₁ s₂ t₁ : State} (hside : s₁.txSide = s₂.txSide) (hfault : s₁.fault = s₂.fault)
    (h : exec .txh s₁ = .next t₁) :
    ∃ t₂, exec .txh s₂ = .next t₂ ∧ t₂.txSide = t₁.txSide ∧ t₂.fault = t₁.fault ∧ t₂.rxSide = s₂.rxSide := by
  obtain ⟨hframe, hout, htxc, htxp, htxlog, hmode⟩ := txSide_eq_iff.mp hside
  have hcur : s₂.currentOut = s₁.currentOut := by rw [State.currentOut, ← hout, ← htxc, State.currentOut]
  obtain ⟨hl, hm, hp, hc, hbyte⟩ := execTxh_next h
  rw [hfault] at hl
  rw [hmode] at hm
  rw [htxp] at hp
  rw [hframe, htxc] at hc
  rcases hbyte with ⟨hb, rfl⟩ | ⟨b, hb, rfl⟩
  · exact ⟨_, exec_txh_unwritten hl hm hp hc (hcur.trans hb), hside.symm, rfl, rfl⟩
  · refine ⟨_, exec_txh_sends hl hm hp hc (hcur.trans hb), txSide_eq_iff.mpr ?_, hfault.symm, rfl⟩
    simp [hframe, hout, htxc, htxlog, hmode]

theorem exec_rxh_of_rxSide_eq {s₁ s₂ t₁ : State} (hside : s₁.rxSide = s₂.rxSide) (hfault : s₁.fault = s₂.fault)
    (h : exec .rxh s₁ = .next t₁) :
    ∃ t₂, exec .rxh s₂ = .next t₂ ∧ t₂.rxSide = t₁.rxSide ∧ t₂.fault = t₁.fault ∧ t₂.txSide = s₂.txSide := by
  obtain ⟨hframe, hin, hrxc, hrxp, hrxd, hmode⟩ := rxSide_eq_iff.mp hside
  obtain ⟨hl, hm, hp, hc, b, hb, rfl⟩ := execRxh_next h
  rw [hfault] at hl
  rw [hmode] at hm
  rw [hrxp] at hp
  rw [hframe, hrxc] at hc
  rw [hrxd] at hb
  refine ⟨_, exec_rxh_stores hl hm hp hc hb, rxSide_eq_iff.mpr ?_, hfault.symm, rfl⟩
  simp [hframe, hin, hrxc, hmode]

/-- Settles O41, one handler at a time. -/
theorem directionsAreIndependent : Obligations.DirectionsAreIndependent :=
  ⟨fun _ _ _ => exec_txh_of_txSide_eq, fun _ _ _ => exec_rxh_of_rxSide_eq⟩

end Sys2Proof.Machine
end

section
/-!
PROOF. The order of the bits on the wire (20_memory.md R41; log entry 12).
-/

namespace Sys2Proof.Machine

theorem wireBits_eq (b : Byte) :
    wireBits b = [b.getLsbD 7, b.getLsbD 6, b.getLsbD 5, b.getLsbD 4, b.getLsbD 3, b.getLsbD 2, b.getLsbD 1,
      b.getLsbD 0] := rfl

/-- Each of the eight bits has been shifted once for every bit that came after it. -/
theorem byteOfWire_wireBits (b : Byte) : byteOfWire (wireBits b) = b := by
  rw [wireBits_eq, byteOfWire]
  ext i hi
  interval_cases i <;> simp

theorem State.wireOut_send (b : Byte) (s : State) : (s.send b).wireOut = s.wireOut ++ wireBits b := by
  simp [State.wireOut]

/-- Settles O57: the bits by place, the byte they make, and the log's bits with one byte more. -/
theorem wireOrderIsMsbFirst : Obligations.WireOrderIsMsbFirst :=
  fun b => ⟨wireBits_eq b, byteOfWire_wireBits b, State.wireOut_send b⟩

end Sys2Proof.Machine
end

section
/-!
PROOF. Decoding and encoding (30_encoding.md R59 to R72). A word is its four fields; the decoder accepts exactly the
words whose fields are well-formed (R63, R66), and the label it gives has the fields of the word.
-/

namespace Sys2Proof

/-- Settles O1: the word of R70 holds the fields of its label, and they pass every test of the decoder. -/
theorem decodeOfEncodeIsTheLabel : Obligations.DecodeOfEncodeIsTheLabel := decode_encode

theorem fieldsOf_encode (i : Instr) : fieldsOf (encode i) = i.fields := by
  cases i <;> exact Laws.fieldsOf_packWord _ _ _

theorem Instr.fields_rsv (i : Instr) : i.fields.rsv = 0 := by
  cases i <;> rfl

/-- The places of R59. -/
theorem toNat_eq_fields (w : Word) :
    w.toNat = (fieldsOf w).idx.toNat * 2 ^ 16 + (fieldsOf w).rsv.toNat * 2 ^ 12 + (fieldsOf w).data.toNat * 2 ^ 4 +
      (fieldsOf w).op.toNat := by
  have := w.isLt
  simp only [fieldsOf, fieldIdx, fieldRsv, fieldData, fieldOp, BitVec.extractLsb'_toNat, Nat.shiftRight_eq_div_pow]
  omega

/-- The four fields cover the word, so no bit of it is outside them. -/
theorem fieldsOf_inj {v w : Word} : fieldsOf v = fieldsOf w ↔ v = w := by
  refine ⟨fun h => BitVec.eq_of_toNat_eq ?_, congrArg fieldsOf⟩
  rw [toNat_eq_fields v, toNat_eq_fields w, h]

/-- Settles O6: a word's number is the sum of its fields at their places, and RSV is 0 in the word of a label. -/
theorem encodedWordIsItsFields : Obligations.EncodedWordIsItsFields := by
  refine ⟨fun i => ?_, by decide⟩
  have h := toNat_eq_fields (encode i)
  rw [fieldsOf_encode, i.fields_rsv] at h
  simpa using h

/-- Settles O7: ten closed computations. -/
theorem specWordsDecode : Obligations.SpecWordsDecode := by
  unfold Obligations.SpecWordsDecode
  decide

theorem opLegal_fieldsOf_iff {w : Word} :
    (fieldsOf w).opLegal = true ↔ fieldOp w ∉ [0x0#4, 0xC#4, 0xD#4, 0xE#4] := by
  simp [Fields.opLegal, fieldsOf, and_assoc]

theorem not_wellFormed_fieldsOf_iff {w : Word} (hop : fieldOp w ∉ [0x0#4, 0xC#4, 0xD#4, 0xE#4]) :
    (fieldsOf w).wellFormed = false ↔
      fieldRsv w ≠ 0 ∨ (fieldOp w ∉ [0x1#4, 0x9#4] ∧ fieldData w ≠ 0) ∨
        (fieldOp w ∉ [0x1#4, 0x2#4, 0x3#4] ∧ fieldIdx w ≠ 0) := by
  rw [Fields.wellFormed, opLegal_fieldsOf_iff.mpr hop, Bool.true_and, Bool.and_eq_false_iff, Bool.and_eq_false_iff]
  simp [fieldsOf, Fields.rsvZero, Fields.dataAllowed, Fields.idxAllowed, or_assoc, and_assoc]

theorem decode_of_illegalOp {w : Word} (hop : fieldOp w ∈ [0x0#4, 0xC#4, 0xD#4, 0xE#4]) :
    decode w = .error .illegalOp := if_pos (by simpa using hop)

theorem decode_of_reservedField {w : Word} (hop : fieldOp w ∉ [0x0#4, 0xC#4, 0xD#4, 0xE#4])
    (h : fieldRsv w ≠ 0 ∨ (fieldOp w ∉ [0x1#4, 0x9#4] ∧ fieldData w ≠ 0) ∨
      (fieldOp w ∉ [0x1#4, 0x2#4, 0x3#4] ∧ fieldIdx w ≠ 0)) : decode w = .error .reservedField := by
  rw [decode, if_neg (by simpa using hop)]
  rcases h with hrsv | hdata | hidx
  · exact if_pos hrsv
  · rw [if_pos (c := _ ∧ fieldData w ≠ 0) (by simpa using hdata), ite_self]
  · rw [if_pos (c := _ ∧ fieldIdx w ≠ 0) (by simpa using hidx), ite_self, ite_self]

/-- Well-formed fields spell a label (R60, R63, R66): the one of their operation code. -/
theorem labelOf_of_wellFormed {f : Fields} (h : f.wellFormed = true) :
    ∃ i, labelOf f.op f.idx f.data = .ok i ∧ i.fields = f := by
  obtain ⟨idx, rsv, data, ⟨⟨op, hlt⟩⟩⟩ := f
  interval_cases op <;>
    simp_all [labelOf, Instr.fields, Fields.wellFormed, Fields.opLegal, Fields.rsvZero, Fields.dataAllowed,
      Fields.idxAllowed]

/-- A word with well-formed fields is the word of the label they spell. -/
theorem decode_of_wellFormed {w : Word} (h : (fieldsOf w).wellFormed = true) :
    ∃ i, decode w = .ok i ∧ i.fields = fieldsOf w := by
  obtain ⟨i, -, hi⟩ := labelOf_of_wellFormed h
  have hw : encode i = w := fieldsOf_inj.mp ((fieldsOf_encode i).trans hi)
  exact ⟨i, hw ▸ decode_encode i, hi⟩

/-- The decoder's three outcomes (R65). -/
theorem decode_outcome (w : Word) :
    (fieldOp w ∈ [0x0#4, 0xC#4, 0xD#4, 0xE#4] ∧ decode w = .error .illegalOp) ∨ decode w = .error .reservedField ∨
      ∃ i, decode w = .ok i ∧ i.fields = fieldsOf w := by
  by_cases hop : fieldOp w ∈ [0x0#4, 0xC#4, 0xD#4, 0xE#4]
  · exact .inl ⟨hop, decode_of_illegalOp hop⟩
  · cases hwf : (fieldsOf w).wellFormed with
    | false => exact .inr (.inl (decode_of_reservedField hop ((not_wellFormed_fieldsOf_iff hop).mp hwf)))
    | true => exact .inr (.inr (decode_of_wellFormed hwf))

/-- The words that decode to a label are those with its fields. -/
theorem decode_eq_ok_iff {w : Word} {i : Instr} : decode w = .ok i ↔ fieldsOf w = i.fields := by
  constructor
  · intro h
    obtain ⟨-, he⟩ | he | ⟨j, hj, hfields⟩ := decode_outcome w
    · cases he.symm.trans h
    · cases he.symm.trans h
    · obtain rfl : j = i := Except.ok.inj (hj.symm.trans h)
      exact hfields.symm
  · intro h
    rw [← fieldsOf_encode i, fieldsOf_inj] at h
    rw [h, decode_encode]

/-- Settles O2: the word and the word of its label have the same fields. -/
theorem encodeOfDecodeIsTheWord : Obligations.EncodeOfDecodeIsTheWord :=
  fun _ i h => fieldsOf_inj.mp ((fieldsOf_encode i).trans (decode_eq_ok_iff.mp h).symm)

/-! ### The opcode map (R72) -/

/-- A row's test is four tests, one per field. -/
theorem and_eq_iff_fields {w mask pattern : Word} :
    w &&& mask = pattern ↔
      fieldIdx w &&& fieldIdx mask = fieldIdx pattern ∧ fieldRsv w &&& fieldRsv mask = fieldRsv pattern ∧
        fieldData w &&& fieldData mask = fieldData pattern ∧ fieldOp w &&& fieldOp mask = fieldOp pattern := by
  rw [← fieldsOf_inj]
  simp only [fieldsOf, Fields.mk.injEq, fieldIdx, fieldRsv, fieldData, fieldOp, BitVec.extractLsb'_and]

theorem exists_instr_iff {P : Instr → Prop} :
    (∃ i, P i) ↔ (∃ idx data, P (.wrout idx data)) ∨ (∃ idx, P (.rdout idx)) ∨ (∃ idx, P (.rdin idx)) ∨ P .rdstat ∨
      P .rdtxc ∨ P .rdrxc ∨ P .arm ∨ P .txrdy ∨ (∃ data, P (.rxrdy data)) ∨ P .txh ∨ P .rxh ∨ P .reset := by
  constructor
  · rintro ⟨i, hi⟩
    cases i <;> grind
  · grind

/-- Row by row: a field of the mask that is all ones fixes the word's field at the pattern's, and one that is 0 leaves
it open, as the row's label does. -/
theorem covers_iff_decode (w : Word) :
    ∀ r ∈ opcodeMap, w &&& r.mask = r.pattern ↔ ∃ i, decode w = .ok i ∧ mnemonicOf i = r.mnemonic := by
  have h16 (x : BitVec 16) : x &&& 0xFFFF#16 = x := BitVec.and_allOnes
  have h8 (x : BitVec 8) : x &&& 0xFF#8 = x := BitVec.and_allOnes
  have h4 (x : BitVec 4) : x &&& 0xF#4 = x := BitVec.and_allOnes
  simp only [decode_eq_ok_iff, exists_instr_iff, mnemonicOf, and_eq_iff_fields]
  simp [opcodeMap, fieldsOf, fieldIdx, fieldRsv, fieldData, fieldOp, Instr.fields, h16, h8, h4]

theorem exists_row (i : Instr) : ∃ r ∈ opcodeMap, mnemonicOf i = r.mnemonic := by
  cases i <;> simp [opcodeMap, mnemonicOf]

theorem opcodeMap_mnemonics_distinct : opcodeMap.Pairwise (fun r q => r.mnemonic ≠ q.mnemonic) := by decide

/-- Settles O4: a word with a legal OP that decodes is covered by the row of its label. -/
theorem opcodeMapDecides : Obligations.OpcodeMapDecides := by
  refine fun w => ⟨covers_iff_decode w, fun hrows hop => ?_⟩
  obtain ⟨hill, -⟩ | he | ⟨i, hi, -⟩ := decode_outcome w
  · exact absurd hill hop
  · exact he
  · obtain ⟨r, hr, hm⟩ := exists_row i
    exact absurd ((covers_iff_decode w r hr).mpr ⟨i, hi, hm⟩) (hrows r hr)

/-- Settles O5: a word that two rows cover decodes to one label, which has one mnemonic. -/
theorem opcodeRowsDoNotOverlap : Obligations.OpcodeRowsDoNotOverlap := by
  refine opcodeMap_mnemonics_distinct.imp_of_mem fun {r q} hr hq hne w ⟨hw, hw'⟩ => ?_
  obtain ⟨i, hi, him⟩ := (covers_iff_decode w r hr).mp hw
  obtain ⟨j, hj, hjm⟩ := (covers_iff_decode w q hq).mp hw'
  obtain rfl : i = j := Except.ok.inj (hi.symm.trans hj)
  exact hne (him.symm.trans hjm)

end Sys2Proof

namespace Sys2Proof.Machine

/-! ### A word that does not decode (R65, R111) -/

theorem step_of_decode_error {s : State} {w : Word} {ws : List Word} {e : DecodeError} (hl : s.fault = none)
    (hs : s.script = w :: ws) (hd : decode w = .error e) :
    step s = .next { s with script := ws, fault := some ⟨decodeCode e, w⟩ } := by
  have hl' : (s.withScript ws).fault = none := hl
  rw [step_of_script_cons hs, takeWord, whenLive_live hl', hd]
  rfl

/-- Settles O9: the decoder's first test is OP's. -/
theorem illegalOpcodeFaults : Obligations.IllegalOpcodeFaults :=
  fun _ _ _ hl hs hop => step_of_decode_error hl hs (decode_of_illegalOp hop)

/-- Settles O10: each of the three faults of R63 fails a test of the decoder. -/
theorem reservedFieldFaults : Obligations.ReservedFieldFaults :=
  fun _ _ _ hl hs hop hfield => step_of_decode_error hl hs (decode_of_reservedField hop hfield)

/-- Settles O3: the spec's slices are the decoder's fields, and a word that passes every test has well-formed fields. -/
theorem decoderFollowsItsRule : Obligations.DecoderFollowsItsRule := by
  refine ⟨fun w ws s hl hs => ⟨step_of_decode_error hl hs, step_of_decode_error hl hs⟩, fun w => ?_⟩
  have hslices : w.extractLsb 3 0 = fieldOp w ∧ w.extractLsb 15 12 = fieldRsv w ∧ w.extractLsb 11 4 = fieldData w ∧
    w.extractLsb 31 16 = fieldIdx w := ⟨rfl, rfl, rfl, rfl⟩
  simp only [hslices]
  split_ifs with hop hrsv hdata hidx
  · exact decode_of_illegalOp (by simpa using hop)
  all_goals have hlegal : fieldOp w ∉ [0x0#4, 0xC#4, 0xD#4, 0xE#4] := by simpa using hop
  · exact decode_of_reservedField hlegal (.inl hrsv)
  · exact decode_of_reservedField hlegal (.inr (.inl (by simpa using hdata)))
  · exact decode_of_reservedField hlegal (.inr (.inr (by simpa using hidx)))
  · have hwf : (fieldsOf w).wellFormed = true := by
      by_contra hwf
      rcases (not_wellFormed_fieldsOf_iff hlegal).mp (Bool.eq_false_of_not_eq_true hwf) with h | h | h
      · exact hrsv h
      · exact hdata (by simpa using h)
      · exact hidx (by simpa using h)
    obtain ⟨i, hi, hfields⟩ := decode_of_wellFormed hwf
    exact ⟨i, hi, hfields.trans (congrArg (Fields.mk _ · _ _) (not_not.mp hrsv))⟩

end Sys2Proof.Machine
end

section
/-!
PROOF. The boot sequence (70_reset_and_hazards.md R129) and the events handled at once (30_encoding.md R71), as
schedules of labels that complete.
-/

namespace Sys2Proof.Machine

theorem runLabels_cons {i : Instr} {s u : State} (h : exec i s = .next u) (is : List Instr) :
    runLabels (i :: is) s = runLabels is u := by
  rw [runLabels, h]

theorem runLabels_append {is : List Instr} {s u : State} (h : runLabels is s = some u) (js : List Instr) :
    runLabels (is ++ js) s = runLabels js u := by
  induction is generalizing s with
  | nil =>
    obtain rfl : s = u := Option.some.inj h
    rfl
  | cons i is ih =>
    obtain ⟨v, hv, hrun⟩ := runLabels_cons_iff.mp h
    rw [List.cons_append, runLabels_cons hv, ih hrun]

/-- The space after a byte of the list has been written to each slot from k on. -/
def Memory.writeFrom (m : Memory) : Nat → List Byte → Memory
  | _, [] => m
  | k, b :: bs => (m.write k b).writeFrom (k + 1) bs

theorem Memory.read_writeFrom_below (bs : List Byte) (m : Memory) {k j : Nat} (h : j < k) :
    (m.writeFrom k bs).read j = m.read j := by
  induction bs generalizing m k with
  | nil => rfl
  | cons b bs ih => rw [Memory.writeFrom, ih _ (by omega), Memory.read_write_other _ _ (by omega)]

theorem Memory.read_writeFrom {bs : List Byte} {i : Nat} {b : Byte} (h : bs[i]? = some b) (m : Memory) (k : Nat) :
    (m.writeFrom k bs).read (k + i) = .written b := by
  induction bs generalizing m k i with
  | nil => simp at h
  | cons a bs ih =>
    rw [Memory.writeFrom]
    cases i with
    | zero =>
      obtain rfl : a = b := by simpa using h
      exact (Memory.read_writeFrom_below _ _ (Nat.lt_add_one k)).trans (Memory.read_write_same m k a)
    | succ i =>
      rw [← Nat.add_assoc, Nat.add_right_comm]
      exact ih (by simpa using h) _ _

theorem runLabels_seedFrom (bs : List Byte) {k : Nat} {s : State} (hl : s.fault = none) (hm : s.mode = .idle)
    (hk : k + bs.length ≤ s.frame.size) :
    runLabels (seedFrom k bs) s = some { s with outBuf := s.outBuf.writeFrom k bs } := by
  induction bs generalizing k s with
  | nil => rfl
  | cons b bs ih =>
    rw [List.length_cons] at hk
    have hidx : (BitVec.ofNat 16 k).toNat = k := by
      have := s.frame.le
      rw [BitVec.toNat_ofNat]
      omega
    have hexec : exec (.wrout (BitVec.ofNat 16 k) b) s = .next (s.writeOut k b) :=
      exec_of_effect hl ⟨by omega, hm, by rw [hidx]⟩
    have hlater := ih (k := k + 1) (s := s.writeOut k b) hl hm (by rw [State.writeOut_frame]; omega)
    exact (runLabels_cons hexec _).trans hlater

/-- Settles O53: SEED writes one slot per byte, so that ARM finds every slot below N written. -/
theorem bootSequenceArms : Obligations.BootSequenceArms := by
  intro s bytes hl hlen
  have hreset : exec .reset s = .next s.clear := exec_of_effect hl rfl
  have hseed : runLabels (seedLabels bytes) s.clear = some { s.clear with outBuf := Memory.writeFrom [] 0 bytes } :=
    runLabels_seedFrom bytes hl rfl (by simp [hlen])
  have hread (i : Nat) (b : Byte) (h : bytes[i]? = some b) : (Memory.writeFrom [] 0 bytes).read i = .written b := by
    simpa using Memory.read_writeFrom h [] 0
  have hall : (Memory.writeFrom [] 0 bytes).allWritten s.frame.size = true := by
    refine (Memory.allWritten_iff _ _).mpr fun i hi => ?_
    rw [hread i _ (List.getElem?_eq_getElem (hlen ▸ hi))]
    simp
  have harm : exec .arm { s.clear with outBuf := Memory.writeFrom [] 0 bytes } =
      .next { s.clear with outBuf := Memory.writeFrom [] 0 bytes, mode := .running } :=
    exec_of_effect hl ⟨rfl, hall, rfl⟩
  have hrun := (runLabels_cons hreset _).trans ((runLabels_append hseed _).trans (runLabels_cons harm []))
  exact ⟨_, hrun, hread, rfl⟩

/-- The cursor step is one more, modulo N (R74). -/
theorem advance_toNat_eq_mod {n : FrameSize} {c : Half} (h : c.toNat < n.size) :
    (advance n c).toNat = (c.toNat + 1) % n.size := by
  rw [advance_toNat h]
  split
  · rename_i hlast
    rw [hlast, Nat.mod_self]
  · exact (Nat.mod_eq_of_lt (by omega)).symm

theorem runLabels_txev {s : State} {c : Byte} (hl : s.fault = none) (hm : s.mode = .running) (hp : s.txp = false)
    (hc : s.txc.toNat < s.frame.size) (hb : s.currentOut = .written c) :
    runLabels txev s = some (s.latchTx.send c).ackTx.advanceTx := by
  have hrdy : exec .txrdy s = .next s.latchTx := exec_of_effect hl ⟨hp, rfl⟩
  have htxh : exec .txh s.latchTx = .next _ := exec_txh_sends (s := s.latchTx) hl hm rfl hc hb
  rw [txev, runLabels_cons hrdy, runLabels_cons htxh, runLabels]

theorem runLabels_rxev {s : State} (b : Byte) (hl : s.fault = none) (hm : s.mode = .running) (hp : s.rxp = false)
    (hc : s.rxc.toNat < s.frame.size) :
    runLabels (rxev b) s = some ((s.latchRx b).currentIn b).ackRx.advanceRx := by
  have hrdy : exec (.rxrdy b) s = .next (s.latchRx b) := exec_of_effect hl ⟨hp, rfl⟩
  have hrxh : exec .rxh (s.latchRx b) = .next _ := exec_rxh_stores (s := s.latchRx b) hl hm rfl hc rfl
  rw [rxev, runLabels_cons hrdy, runLabels_cons hrxh, runLabels]

/-- Settles O54: the event that the first label latches is the one that the handler acknowledges, so every latch ends as
it was. -/
theorem pseudoEventsRunAtOnce : Obligations.PseudoEventsRunAtOnce := by
  intro s b hinv hl hm
  obtain ⟨⟨htx, hrx⟩, hseeded, hlatch, -⟩ := hinv
  refine ⟨fun hp => ?_, fun hp => ?_⟩
  · obtain ⟨c, hc⟩ := (Cell.ne_unwritten_iff _).mp (hseeded hm _ htx)
    refine ⟨_, c, runLabels_txev hl hm hp htx hc, hc, ?_, advance_toNat_eq_mod htx⟩
    simp [State.latchTx, State.send, State.ackTx, State.advanceTx, hp]
  · have hd : s.rxd = .unwritten := by simpa [hp, State.latchAgrees] using hlatch
    refine ⟨_, runLabels_rxev b hl hm hp hrx, ?_, ?_, ?_, advance_toNat_eq_mod hrx⟩
    · exact Memory.read_write_same _ _ b
    · exact fun j hj => Memory.read_write_other _ b hj
    · simp [State.latchRx, State.currentIn, State.writeIn, State.ackRx, State.advanceRx, hp, hd]

end Sys2Proof.Machine
end

section
/-!
PROOF. The assembler's operand forms (30_encoding.md R69) and the three pseudo-instructions (R71): a mnemonic selects
the form of its operands, and each form has its count and its ranges.
-/

namespace Sys2Proof.Machine

/-! ### The forms of operands -/

theorem asmIdx_of_le {n : Nat} (h : n ≤ 65535) : asmIdx n = .ok (BitVec.ofNat 16 n) := if_pos h

theorem asmIdx_of_lt {n : Nat} (h : 65535 < n) : asmIdx n = .error .operandRange := if_neg (Nat.not_le.mpr h)

theorem asmData_of_le {n : Nat} (h : n ≤ 255) : asmData n = .ok (BitVec.ofNat 8 n) := if_pos h

theorem asmData_of_lt {n : Nat} (h : 255 < n) : asmData n = .error .operandRange := if_neg (Nat.not_le.mpr h)

theorem asmWrout_of_le {i d : Nat} (hi : i ≤ 65535) (hd : d ≤ 255) :
    asmWrout [i, d] = .ok [.wrout (BitVec.ofNat 16 i) (BitVec.ofNat 8 d)] := by
  rw [asmWrout, asmIdx_of_le hi, asmData_of_le hd]

theorem asmWrout_of_lt {i d : Nat} (h : 65535 < i ∨ 255 < d) : asmWrout [i, d] = .error .operandRange := by
  rcases h with h | h
  · simp [asmWrout, asmIdx_of_lt h]
  · simp [asmWrout, asmData_of_lt h]

theorem asmWrout_of_length {ops : List Nat} (h : ops.length ≠ 2) : asmWrout ops = .error .operandCount := by
  match ops with
  | [] | [_] | _ :: _ :: _ :: _ => rfl
  | [_, _] => exact absurd rfl h

section
variable {f : Half → List Instr} {g : Byte → List Instr} {l : List Instr} {n : Nat} {ops : List Nat}

theorem asmIndexed_of_le (h : n ≤ 65535) : asmIndexed f [n] = .ok (f (BitVec.ofNat 16 n)) := by
  rw [asmIndexed, asmIdx_of_le h]
  rfl

theorem asmIndexed_of_lt (h : 65535 < n) : asmIndexed f [n] = .error .operandRange := by
  rw [asmIndexed, asmIdx_of_lt h]
  rfl

theorem asmIndexed_of_length (h : ops.length ≠ 1) : asmIndexed f ops = .error .operandCount := by
  match ops with
  | [] | _ :: _ :: _ => rfl
  | [_] => exact absurd rfl h

theorem asmByte_of_le (h : n ≤ 255) : asmByte g [n] = .ok (g (BitVec.ofNat 8 n)) := by
  rw [asmByte, asmData_of_le h]
  rfl

theorem asmByte_of_lt (h : 255 < n) : asmByte g [n] = .error .operandRange := by
  rw [asmByte, asmData_of_lt h]
  rfl

theorem asmByte_of_length (h : ops.length ≠ 1) : asmByte g ops = .error .operandCount := by
  match ops with
  | [] | _ :: _ :: _ => rfl
  | [_] => exact absurd rfl h

theorem asmPlain_of_length (h : ops.length ≠ 0) : asmPlain l ops = .error .operandCount := by
  match ops with
  | [] => exact absurd rfl h
  | _ :: _ => rfl

end

/-! ### SEED -/

theorem asmBytes_of_le {ops : List Nat} (h : ∀ d ∈ ops, d ≤ 255) : asmBytes ops = .ok (ops.map (BitVec.ofNat 8)) := by
  induction ops with
  | nil => rfl
  | cons d ds ih =>
    obtain ⟨hd, hds⟩ := List.forall_mem_cons.mp h
    rw [asmBytes, asmData_of_le hd, ih hds]
    rfl

theorem asmBytes_of_lt {ops : List Nat} (h : ∃ d ∈ ops, 255 < d) : asmBytes ops = .error .operandRange := by
  induction ops with
  | nil => simp at h
  | cons d ds ih =>
    rcases (List.exists_mem_cons_iff ..).mp h with h | h
    · simp [asmBytes, asmData_of_lt h]
    · simp [asmBytes, ih h]

theorem seedFrom_length (bs : List Byte) (k : Nat) : (seedFrom k bs).length = bs.length := by
  induction bs generalizing k with
  | nil => rfl
  | cons b bs ih => rw [seedFrom, List.length_cons, ih, List.length_cons]

theorem seedFrom_getElem? (bs : List Byte) (k i : Nat) :
    (seedFrom k bs)[i]? = bs[i]?.map (fun b => Instr.wrout (BitVec.ofNat 16 (k + i)) b) := by
  induction bs generalizing k i with
  | nil => rfl
  | cons b bs ih =>
    cases i with
    | zero => rfl
    | succ i => simp [seedFrom, ih, Nat.add_right_comm, Nat.add_assoc]

theorem asmSeed_of_length {n : FrameSize} {ops : List Nat} (h : ops.length ≠ n.size) :
    asmSeed n ops = .error .operandCount := if_neg h

theorem asmSeed_of_lt {n : FrameSize} {ops : List Nat} (hlen : ops.length = n.size) (h : ∃ d ∈ ops, 255 < d) :
    asmSeed n ops = .error .operandRange := by
  rw [asmSeed, if_pos hlen, asmBytes_of_lt h]
  rfl

theorem asmSeed_of_le {n : FrameSize} {ops : List Nat} (hlen : ops.length = n.size) (h : ∀ d ∈ ops, d ≤ 255) :
    asmSeed n ops = .ok (seedLabels (ops.map (BitVec.ofNat 8))) := by
  rw [asmSeed, if_pos hlen, asmBytes_of_le h]
  rfl

/-! ### The mnemonics -/

section
variable (n : FrameSize) (ops : List Nat)

theorem assemble_wrout : assemble n "WROUT".toList ops = asmWrout ops := rfl

theorem assemble_rdout : assemble n "RDOUT".toList ops = asmIndexed (fun idx => [.rdout idx]) ops := rfl

theorem assemble_rdin : assemble n "RDIN".toList ops = asmIndexed (fun idx => [.rdin idx]) ops := rfl

theorem assemble_rxrdy : assemble n "RXRDY".toList ops = asmByte (fun b => [.rxrdy b]) ops := rfl

theorem assemble_seed : assemble n "SEED".toList ops = asmSeed n ops := rfl

theorem assemble_rxev : assemble n "RXEV".toList ops = asmByte rxev ops := rfl

end

/-- The labels and the pseudo-instruction without an operand, and what each assembles to. -/
theorem assemble_eq_asmPlain (n : FrameSize) (ops : List Nat) :
    ∀ p ∈ [("RDSTAT", [Instr.rdstat]), ("RDTXC", [.rdtxc]), ("RDRXC", [.rdrxc]), ("ARM", [.arm]), ("TXRDY", [.txrdy]),
        ("TXH", [.txh]), ("RXH", [.rxh]), ("RESET", [.reset]), ("TXEV", [.txrdy, .txh])],
      assemble n p.1.toList ops = asmPlain p.2 ops := by
  simp only [List.forall_mem_cons, assemble, String.toList_inj]
  simp [txev]

theorem assemble_of_not_mem {n : FrameSize} {ops : List Nat} {m : String}
    (h : m ∉ ["WROUT", "RDOUT", "RDIN", "RDSTAT", "RDTXC", "RDRXC", "ARM", "TXRDY", "RXRDY", "TXH", "RXH", "RESET",
      "SEED", "TXEV", "RXEV"]) : assemble n m.toList ops = .error .unknownMnemonic := by
  simp only [List.mem_cons, List.not_mem_nil, or_false, not_or] at h
  simp only [assemble, String.toList_inj, h, if_false]

/-- Settles O59: each mnemonic's form, then the form's range and count. -/
theorem assemblerRefusesBadOperands : Obligations.AssemblerRefusesBadOperands := by
  intro n ops
  simp only [assemble_wrout, assemble_rdout, assemble_rdin, assemble_rxrdy, assemble_rxev, assemble_seed]
  refine ⟨fun i d => ⟨asmWrout_of_le, asmWrout_of_lt⟩, fun i => ⟨fun h => ?_, fun h => ?_⟩,
    fun d => ⟨fun h => ?_, fun h => ?_⟩, fun hlen h => ⟨_, asmSeed_of_le hlen h, ?_, fun k d hd => ?_⟩, asmSeed_of_lt, fun p hp => ?_, fun h => ?_,
    asmWrout_of_length, asmSeed_of_length, fun m => assemble_of_not_mem⟩
  · exact ⟨asmIndexed_of_le h, asmIndexed_of_le h⟩
  · exact ⟨asmIndexed_of_lt h, asmIndexed_of_lt h⟩
  · exact ⟨asmByte_of_le h, asmByte_of_le h⟩
  · exact ⟨asmByte_of_lt h, asmByte_of_lt h⟩
  · simp [seedLabels, seedFrom_length, hlen]
  · simp [seedLabels, seedFrom_getElem?, hd]
  · rw [assemble_eq_asmPlain n [] p hp, assemble_eq_asmPlain n ops p hp]
    exact ⟨rfl, asmPlain_of_length⟩
  · simp only [List.forall_mem_cons, assemble_rdout, assemble_rdin, assemble_rxrdy, assemble_rxev]
    simp [asmIndexed_of_length h, asmByte_of_length h]

end Sys2Proof.Machine
end

section
/-!
PROOF. The host's buffer labels, every case (40_transfer_buffers.md R78 to R80), and the cursor step iterated (R74 to
R76).
-/

namespace Sys2Proof.Machine

theorem withIndex_outside {idx : Half} {s : State} (h : s.frame.size ≤ idx.toNat) (w : Word) (k : StepResult) :
    withIndex idx w s k = .next (s.record .indexRange w) := if_neg (Nat.not_lt.mpr h)

theorem exec_wrout_running {idx : Half} {s : State} (hl : s.fault = none) (hi : idx.toNat < s.frame.size)
    (hm : s.mode = .running) (data : Byte) :
    exec (.wrout idx data) s = .next (s.record .seedWhileRunning (encode (.wrout idx data))) := by
  simp [exec, execWrout, hl, hi, hm, raise]

/-- Settles O17: WROUT tests its index, then the mode, and a write reads back in its own slot alone. -/
theorem wroutSeedsItsSlot : Obligations.WroutSeedsItsSlot := by
  intro idx data s hl
  refine ⟨fun hi => ?_, fun hi hm => exec_wrout_running hl hi hm data, fun hi hm => ?_⟩
  · exact (whenLive_live hl _).trans (withIndex_outside hi _ _)
  · refine ⟨s.writeOut idx.toNat data, exec_of_effect hl ⟨hi, hm, rfl⟩, ?_, fun j hj => ?_, rfl⟩
    · exact Memory.read_write_same _ _ data
    · exact Memory.read_write_other _ data hj

/-- RDOUT and RDIN differ in the buffer whose Cell they read: the index is tested first, then the Cell. -/
theorem bufferRead_outcomes {s : State} (hl : s.fault = none) (idx : Half) (w : Word) (c : Cell) {r : StepResult}
    (hr : r = whenLive s (withIndex idx w s (withByte c .unwrittenRead w s (fun b => hostReturn (.byte b) s)))) :
    (s.frame.size ≤ idx.toNat → r = .next (s.record .indexRange w)) ∧
      (idx.toNat < s.frame.size → c = .unwritten → r = .next (s.record .unwrittenRead w)) ∧
      (∀ b, idx.toNat < s.frame.size → c = .written b → r = .next (s.answer (.byte b))) := by
  rw [whenLive_live hl] at hr
  refine ⟨fun hi => ?_, fun hi hc => ?_, fun b hi hc => ?_⟩
  · rw [hr, withIndex_outside hi]
  · rw [hr, withIndex_inside hi, hc, withByte_unwritten, raise]
  · rw [hr, withIndex_inside hi, hc, withByte_written, hostReturn]

/-- Settles O18, as a read of OUT. -/
theorem rdoutReturnsItsSlot : Obligations.RdoutReturnsItsSlot := fun idx _ hl => bufferRead_outcomes hl idx _ _ rfl

/-- Settles O19, as a read of IN. -/
theorem rdinReturnsItsSlot : Obligations.RdinReturnsItsSlot := fun idx _ hl => bufferRead_outcomes hl idx _ _ rfl

/-- Settles O48: the cursor step as a number, and that it stays in range. -/
theorem advanceWrapsAtN : Obligations.AdvanceWrapsAtN := fun _ _ h => ⟨advance_toNat h, advance_lt h⟩

theorem iterate_advance_toNat {n : FrameSize} {c : Half} (h : c.toNat < n.size) (k : Nat) :
    ((advance n)^[k] c).toNat = (c.toNat + k) % n.size := by
  induction k with
  | zero => exact (Nat.mod_eq_of_lt h).symm
  | succ k ih =>
    have hlt : ((advance n)^[k] c).toNat < n.size := ih ▸ Nat.mod_lt _ n.pos
    rw [Function.iterate_succ_apply', advance_toNat_eq_mod hlt, ih, Nat.mod_add_mod, Nat.add_assoc]

/-- Settles O49: k steps add k modulo N, and N is 0 modulo N. -/
theorem advanceAddsModuloN : Obligations.AdvanceAddsModuloN := by
  refine fun n c h => ⟨iterate_advance_toNat h, BitVec.eq_of_toNat_eq ?_⟩
  rw [iterate_advance_toNat h, Nat.add_mod_right, Nat.mod_eq_of_lt h]

end Sys2Proof.Machine
end

section
/-!
PROOF. The laws of the two buffers over a run (40_transfer_buffers.md R82, R83). Each law is stated of the state after
any number of labels, so that it holds right after RESET and every label of a run without fault or RESET keeps it.
-/

namespace Sys2Proof.Machine

/-! ### Runs and their labels -/

theorem runLabels_concat_iff {is : List Instr} {i : Instr} {s t : State} :
    runLabels (is ++ [i]) s = some t ↔ ∃ u, runLabels is s = some u ∧ exec i u = .next t := by
  induction is generalizing s with
  | nil => exact runLabels_cons_iff.trans (by simp [runLabels])
  | cons j js ih =>
    simp only [List.cons_append, runLabels_cons_iff, ih]
    constructor
    · rintro ⟨v, hv, u, hu, ht⟩
      exact ⟨u, ⟨v, hv, hu⟩, ht⟩
    · rintro ⟨u, ⟨v, hv, hu⟩, ht⟩
      exact ⟨v, hv, u, hu, ht⟩

/-- What holds before the first label, and is kept by every label that is taken without a fault, holds after the run. P
speaks of the labels taken so far and the state they lead to. -/
theorem runLabels_induction {P : List Instr → State → Prop} {ls : List Instr} {s t : State}
    (hrun : runLabels ls s = some t) (hf : t.fault = none) (hstart : P [] s)
    (hstep : ∀ is i u v, i ∈ ls → P is u → exec i u = .next v → v.fault = none → P (is ++ [i]) v) :
    P ls t := by
  induction ls using List.reverseRecOn generalizing t with
  | nil =>
    obtain rfl : s = t := Option.some.inj hrun
    exact hstart
  | append_singleton is i ih =>
    obtain ⟨u, hu, ht⟩ := runLabels_concat_iff.mp hrun
    have hP : P is u :=
      ih hu (exec_next ht).1 fun js j v w hj => hstep js j v w (List.mem_append_left [i] hj)
    exact hstep is i u t (by simp) hP ht hf

theorem runLabels_frame {ls : List Instr} {s t : State} (h : runLabels ls s = some t) : t.frame = s.frame := by
  induction ls generalizing s with
  | nil =>
    obtain rfl : s = t := Option.some.inj h
    rfl
  | cons i is ih =>
    obtain ⟨u, hu, hrun⟩ := runLabels_cons_iff.mp h
    exact (ih hrun).trans (exec_agentFrame hu).frame_eq

theorem runLabels_reset_cons {ls : List Instr} {s t : State} (h : runLabels (.reset :: ls) s = some t) :
    runLabels ls s.clear = some t := by
  obtain ⟨u, hu, hrun⟩ := runLabels_cons_iff.mp h
  obtain ⟨-, rfl⟩ := execReset_next hu
  exact hrun

/-- A cursor equal to k modulo N is advanced to k + 1 modulo N. -/
theorem advance_toNat_of_eq_mod {n : FrameSize} {c : Half} {k : Nat} (h : c.toNat = k % n.size) :
    (advance n c).toNat = (k + 1) % n.size := by
  rw [advance_toNat_eq_mod (h ▸ Nat.mod_lt _ n.pos), h, Nat.mod_add_mod]

/-! ### Transmission (R83) -/

/-- R83 in the state u after the labels ls, the log having been log at the start. No byte has been sent in Idle, so a
WROUT, which is taken in Idle alone, changes no slot that has been sent. -/
structure TransmitLaw (log : List Byte) (ls : List Instr) (u : State) : Prop where
  cursor : u.txc.toNat = ls.count .txh % u.frame.size
  idle : u.mode = .idle → ls.count .txh = 0
  sent : ∃ bs, u.txlog = log ++ bs ∧ bs.length = ls.count .txh ∧
    ∀ j b, bs[j]? = some b → u.outBuf.read (j % u.frame.size) = .written b

theorem transmitLaw_clear (s : State) : TransmitLaw s.txlog [] s.clear :=
  ⟨(Nat.zero_mod _).symm, fun _ => rfl, [], by simp⟩

theorem TransmitLaw.txh {log : List Byte} {is : List Instr} {u v : State} (h : TransmitLaw log is u)
    (he : exec .txh u = .next v) (hf : v.fault = none) : TransmitLaw log (is ++ [.txh]) v := by
  obtain ⟨hm, -, -, b, hb, rfl⟩ := effect_of_exec he hf
  obtain ⟨hcursor, -, bs, hlog, hlen, hsent⟩ := h
  have hcount : (is ++ [Instr.txh]).count .txh = is.count .txh + 1 := by simp
  refine ⟨?_, by simp [hm], bs ++ [b], by simp [hlog], by simp [hlen], fun j c hj => ?_⟩
  · rw [hcount]
    exact advance_toNat_of_eq_mod hcursor
  · obtain ⟨hlast, -⟩ := List.getElem?_eq_some_iff.mp hj
    rw [List.length_append, List.length_singleton] at hlast
    rcases Nat.lt_succ_iff_lt_or_eq.mp hlast with hlt | rfl
    · exact hsent j c (by rwa [List.getElem?_append_left hlt] at hj)
    · obtain rfl : b = c := by simpa using hj
      rw [hlen]
      exact hcursor ▸ hb

/-- Any other label but RESET leaves TXC and TXLOG, and OUT too once a byte has been sent. -/
theorem TransmitLaw.other {log : List Byte} {is : List Instr} {i : Instr} {u v : State} (h : TransmitLaw log is u)
    (he : exec i u = .next v) (htxh : i ≠ .txh) (hreset : i ≠ .reset) : TransmitLaw log (is ++ [i]) v := by
  obtain ⟨hcursor, hidle, bs, hlog, hlen, hsent⟩ := h
  obtain ⟨hout, htxc, -⟩ := eachPieceHasItsWriters i u v he
  have hframe : v.frame = u.frame := (exec_agentFrame he).frame_eq
  have hcursor' : v.txc = u.txc := by
    by_contra hne
    exact (htxc hne).elim hreset htxh
  have hlog' : v.txlog = u.txlog := (txlogGrowsOnlyByTxh i u v he).1 htxh
  have hmode : v.mode = .idle → u.mode = .idle := fun hv => by
    cases hu : u.mode with
    | idle => rfl
    | running => exact absurd ((modeMovesOnlyByArmAndReset i u v he).2 hu hv) hreset
  have hcount : (is ++ [i]).count .txh = is.count .txh := by simp [htxh]
  refine ⟨?_, ?_, bs, hlog'.trans hlog, hlen.trans hcount.symm, fun j b hj => ?_⟩
  · rw [hcursor', hcount, hframe, hcursor]
  · rw [hcount]
    exact fun hv => hidle (hmode hv)
  · have hsame : v.outBuf = u.outBuf := by
      by_contra hne
      obtain ⟨hm, -⟩ := (hout hne).resolve_left hreset
      have hbs : bs = [] := List.eq_nil_of_length_eq_zero (hlen.trans (hidle hm))
      simp [hbs] at hj
    rw [hsame, hframe]
    exact hsent j b hj

/-- Settles O51: the law holds right after RESET, and TXH and every other label keep it. -/
theorem transmitOrderLaw : Obligations.TransmitOrderLaw := by
  intro s t ls hrun hf hreset
  replace hrun := runLabels_reset_cons hrun
  have hlaw : TransmitLaw s.txlog ls t := by
    refine runLabels_induction hrun hf (transmitLaw_clear s) fun is i u v hi h he hv => ?_
    by_cases htxh : i = .txh
    · subst htxh
      exact h.txh he hv
    · exact h.other he htxh (ne_of_mem_of_not_mem hi hreset)
  have hframe : t.frame = s.frame := runLabels_frame (s := s.clear) hrun
  exact ⟨hframe ▸ hlaw.cursor, hframe ▸ hlaw.sent⟩

/-! ### Reception (R82) -/

/-- The byte that a Cell holds, if any. -/
def Cell.bytes : Cell → List Byte
  | .unwritten => []
  | .written b => [b]

theorem offered_append (is js : List Instr) : offered (is ++ js) = offered is ++ offered js := by
  induction is with
  | nil => rfl
  | cons i is ih =>
    cases i with
    | rxrdy b => exact congrArg (b :: ·) ih
    | wrout idx data | rdout idx | rdin idx | rdstat | rdtxc | rdrxc | arm | txrdy | txh | rxh | reset => exact ih

theorem offered_singleton_other {i : Instr} (h : ∀ b, i ≠ .rxrdy b) : offered [i] = [] := by
  cases i with
  | rxrdy b => exact absurd rfl (h b)
  | wrout idx data | rdout idx | rdin idx | rdstat | rdtxc | rdrxc | arm | txrdy | txh | rxh | reset => rfl

/-- R82 in the state u after the labels ls: of the bytes offered, RXH has taken the first k, and the one still latched
in RXD, if any, follows them. -/
structure ReceiveLaw (ls : List Instr) (u : State) : Prop where
  inv : u.Inv
  cursor : u.rxc.toNat = ls.count .rxh % u.frame.size
  taken : ∃ bs, offered ls = bs ++ u.rxd.bytes ∧ bs.length = ls.count .rxh
  unreached : ∀ j, ls.count .rxh ≤ j → u.inBuf.read j = .unwritten
  captured : ∀ i < ls.count .rxh, (∀ i' < ls.count .rxh, i' % u.frame.size = i % u.frame.size → i' ≤ i) →
    ∃ b, (offered ls)[i]? = some b ∧ u.inBuf.read (i % u.frame.size) = .written b

theorem receiveLaw_clear (s : State) : ReceiveLaw [] s.clear :=
  ⟨inv_clear s, (Nat.zero_mod _).symm, ⟨[], rfl, rfl⟩, fun _ _ => rfl, by simp⟩

/-- RXH stores the k-th byte offered. Of the slots stored before it, the one that it overwrites is no longer the latest
of its residue. -/
theorem ReceiveLaw.rxh {is : List Instr} {u v : State} (h : ReceiveLaw is u) (he : exec .rxh u = .next v) :
    ReceiveLaw (is ++ [.rxh]) v := by
  have hinv : v.Inv := exec_keeps_inv h.inv he
  obtain ⟨-, -, -, -, b, hb, rfl⟩ := execRxh_next he
  obtain ⟨-, hcursor, ⟨bs, htaken, hlen⟩, hunreached, hcaptured⟩ := h
  have hcount : (is ++ [Instr.rxh]).count .rxh = is.count .rxh + 1 := by simp
  have hoffered : offered (is ++ [.rxh]) = offered is := by simp [offered_append, offered]
  have hbytes : offered is = bs ++ [b] := by rw [htaken, hb, Cell.bytes]
  have hwritten : (u.inBuf.write u.rxc.toNat b).read (is.count .rxh % u.frame.size) = .written b :=
    hcursor ▸ Memory.read_write_same _ _ b
  have hother (j : Nat) (hj : j ≠ is.count .rxh % u.frame.size) :
      (u.inBuf.write u.rxc.toNat b).read j = u.inBuf.read j :=
    Memory.read_write_other _ b (hcursor ▸ hj)
  refine ⟨hinv, ?_, ⟨bs ++ [b], ?_, ?_⟩, fun j hj => ?_, fun i hi hlatest => ?_⟩
  · rw [hcount]
    exact advance_toNat_of_eq_mod hcursor
  · simp [hoffered, hbytes, Cell.bytes]
  · simp [hlen]
  · rw [hcount] at hj
    have hmod := Nat.mod_le (is.count .rxh) u.frame.size
    exact (hother j (by omega)).trans (hunreached j (by omega))
  · rw [hcount] at hi hlatest
    rw [hoffered]
    rcases Nat.lt_succ_iff_lt_or_eq.mp hi with hlt | rfl
    · have hne : i % u.frame.size ≠ is.count .rxh % u.frame.size := fun heq =>
        absurd (hlatest _ (Nat.lt_succ_self _) heq.symm) (Nat.not_le.mpr hlt)
      obtain ⟨c, hc, hread⟩ := hcaptured i hlt fun i' hi' => hlatest i' (Nat.lt_succ_of_lt hi')
      exact ⟨c, hc, (hother _ hne).trans hread⟩
    · exact ⟨b, by simp [hbytes, ← hlen], hwritten⟩

/-- Every label but RXH and RESET leaves RXC and IN, so that only the bytes offered are at stake. -/
theorem ReceiveLaw.of_taken {is : List Instr} {i : Instr} {u v : State} (h : ReceiveLaw is u) (he : exec i u = .next v)
    (hrxh : i ≠ .rxh) (hreset : i ≠ .reset)
    (htaken : ∃ bs, offered (is ++ [i]) = bs ++ v.rxd.bytes ∧ bs.length = is.count .rxh) :
    ReceiveLaw (is ++ [i]) v := by
  obtain ⟨hinv, hcursor, ⟨bs, hbs, hlen⟩, hunreached, hcaptured⟩ := h
  obtain ⟨-, -, hin, hrxc, -⟩ := eachPieceHasItsWriters i u v he
  have hframe : v.frame = u.frame := (exec_agentFrame he).frame_eq
  have hin' : v.inBuf = u.inBuf := by
    by_contra hne
    exact (hin hne).elim hreset hrxh
  have hcursor' : v.rxc = u.rxc := by
    by_contra hne
    exact (hrxc hne).elim hreset hrxh
  have hcount : (is ++ [i]).count .rxh = is.count .rxh := by simp [hrxh]
  refine ⟨exec_keeps_inv hinv he, ?_, ?_, ?_, ?_⟩ <;> rw [hcount]
  · rw [hcursor', hframe, hcursor]
  · exact htaken
  · rw [hin']
    exact hunreached
  · rw [hin', hframe]
    intro j hj hlatest
    obtain ⟨b, hb, hread⟩ := hcaptured j hj hlatest
    obtain ⟨hlt, -⟩ := List.getElem?_eq_some_iff.mp hb
    exact ⟨b, by rw [offered_append, List.getElem?_append_left hlt, hb], hread⟩

/-- RXRDY finds the latch empty, so that the byte it offers comes right after those RXH has taken. -/
theorem ReceiveLaw.rxrdy {is : List Instr} {b : Byte} {u v : State} (h : ReceiveLaw is u)
    (he : exec (.rxrdy b) u = .next v) (hf : v.fault = none) : ReceiveLaw (is ++ [.rxrdy b]) v := by
  refine h.of_taken he (by simp) (by simp) ?_
  obtain ⟨hp, rfl⟩ := effect_of_exec he hf
  obtain ⟨⟨-, -, hlatch, -⟩, -, ⟨bs, htaken, hlen⟩, -⟩ := h
  have hd : u.rxd = .unwritten := by simpa [hp, State.latchAgrees] using hlatch
  exact ⟨bs, by simp [offered_append, htaken, hd, offered, Cell.bytes], hlen⟩

theorem ReceiveLaw.other {is : List Instr} {i : Instr} {u v : State} (h : ReceiveLaw is u) (he : exec i u = .next v)
    (hrxh : i ≠ .rxh) (hrxrdy : ∀ b, i ≠ .rxrdy b) (hreset : i ≠ .reset) : ReceiveLaw (is ++ [i]) v := by
  refine h.of_taken he hrxh hreset ?_
  obtain ⟨-, -, -, -, -, -, -, -, -, hrxd⟩ := eachPieceHasItsWriters i u v he
  have hrxd' : v.rxd = u.rxd := by
    by_contra hne
    rcases hrxd hne with h | h | ⟨b, h⟩
    · exact hreset h
    · exact hrxh h
    · exact hrxrdy b h
  obtain ⟨bs, htaken, hlen⟩ := h.taken
  exact ⟨bs, by rw [offered_append, offered_singleton_other hrxrdy, List.append_nil, htaken, hrxd'], hlen⟩

/-- Settles O50: the law holds right after RESET, and RXH, RXRDY and every other label keep it. -/
theorem receiveCaptureLaw : Obligations.ReceiveCaptureLaw := by
  intro s t ls hrun hf hreset
  replace hrun := runLabels_reset_cons hrun
  have hlaw : ReceiveLaw ls t := by
    refine runLabels_induction hrun hf (receiveLaw_clear s) fun is i u v hi h he hv => ?_
    by_cases hrxh : i = .rxh
    · subst hrxh
      exact h.rxh he
    by_cases hrxrdy : ∃ b, i = .rxrdy b
    · obtain ⟨b, rfl⟩ := hrxrdy
      exact h.rxrdy he hv
    · exact h.other he hrxh (not_exists.mp hrxrdy) (ne_of_mem_of_not_mem hi hreset)
  have hframe : t.frame = s.frame := runLabels_frame (s := s.clear) hrun
  exact ⟨hframe ▸ hlaw.cursor, fun j _ => hlaw.unreached j, hframe ▸ hlaw.captured⟩

end Sys2Proof.Machine
end

section
/-!
PROOF. The duplex engine, label by label (41_duplex_engine.md R87, R88, R91 to R94, R101): each label's outcomes, one
lemma per outcome; and the port of a host read's result (R106; log entry 14).
-/

namespace Sys2Proof.Machine

theorem step_of_script_nil {s : State} (h : s.script = []) : step s = waitForLabel s := by
  simp [step, h]

/-- Settles O11: with no word the step is the wait, and the wait of a live machine changes nothing. -/
theorem stepWaitsWithNoWord : Obligations.StepWaitsWithNoWord :=
  fun _ hl hs => (step_of_script_nil hs).trans (whenLive_live hl _)

theorem State.txCur_eq (s : State) : s.txCur = s.txc := BitVec.setWidth_eq s.txc

theorem State.rxCur_eq (s : State) : s.rxCur = s.rxc := BitVec.setWidth_eq s.rxc

/-- Settles O21: RDTXC's answer is TXCUR, and TXC is as wide as that view. -/
theorem rdtxcReturnsTheCursor : Obligations.RdtxcReturnsTheCursor :=
  fun s hl => exec_of_effect hl (by rw [Effect, s.txCur_eq, State.answer])

/-- Settles O22: RDRXC's answer is RXCUR, and RXC is as wide as that view. -/
theorem rdrxcReturnsTheCursor : Obligations.RdrxcReturnsTheCursor :=
  fun s hl => exec_of_effect hl (by rw [Effect, s.rxCur_eq, State.answer])

theorem Memory.not_allWritten {m : Memory} {n : Nat} (h : ∃ i < n, m.read i = .unwritten) :
    m.allWritten n = false := by
  obtain ⟨i, hi, hread⟩ := h
  exact Bool.eq_false_iff.mpr fun hall => (Memory.allWritten_iff m n).mp hall i hi hread

theorem exec_arm_running {s : State} (hl : s.fault = none) (hm : s.mode = .running) :
    exec .arm s = .next (s.record .armTwice (encode .arm)) := by
  simp [exec, execArm, hl, hm, raise]

theorem exec_arm_unseeded {s : State} (hl : s.fault = none) (hm : s.mode = .idle)
    (ho : ∃ i < s.frame.size, s.outBuf.read i = .unwritten) :
    exec .arm s = .next (s.record .armBeforeSeed (encode .arm)) := by
  simp [exec, execArm, hl, hm, Memory.not_allWritten ho, raise]

theorem exec_arm_seeded {s : State} (hl : s.fault = none) (hm : s.mode = .idle)
    (ho : ∀ i < s.frame.size, s.outBuf.read i ≠ .unwritten) : exec .arm s = .next s.enableEvents :=
  exec_of_effect hl ⟨hm, (Memory.allWritten_iff _ _).mpr ho, rfl⟩

/-- Settles O23: ARM tests the mode, then OUT's slots. -/
theorem armStartsASeededEngine : Obligations.ArmStartsASeededEngine :=
  fun _ hl => ⟨exec_arm_running hl, exec_arm_unseeded hl, exec_arm_seeded hl⟩

/-- Settles O24: a second event is TX_REASSERT, and a first one is latched. -/
theorem txrdyLatchesTheEvent : Obligations.TxrdyLatchesTheEvent :=
  fun _ hl => ⟨exec_txrdy_pending hl, fun hp => exec_of_effect hl ⟨hp, rfl⟩⟩

/-- Settles O25: a second event is RX_OVERRUN, and a first one is latched with its byte. -/
theorem rxrdyLatchesTheByte : Obligations.RxrdyLatchesTheByte :=
  fun data _ hl => ⟨fun hp => exec_rxrdy_pending hl hp data, fun hp => exec_of_effect hl ⟨hp, rfl⟩⟩

/-- Settles O58: a byte is below 2^8, so that zero-extending it to 16 bits keeps its number. -/
theorem hostReadDataIsZeroExtended : Obligations.HostReadDataIsZeroExtended :=
  fun b _ => ⟨BitVec.toNat_setWidth_of_le (b := b) (by decide), rfl⟩

end Sys2Proof.Machine
end

section
/-!
PROOF. The handlers under the invariant (41_duplex_engine.md R95, R96, R100): an enabled handler has the byte it needs,
so it has its effect, and never the fault of an unwritten slot.
-/

namespace Sys2Proof.Machine

/-- Settles O39: ARM changes the mode alone, so that of a handler's guard only its event is left to hold or fail. -/
theorem pendingEventsSurviveArm : Obligations.PendingEventsSurviveArm := by
  intro s t h hf
  obtain ⟨-, -, rfl⟩ := effect_of_exec h hf
  rw [State.enableEvents_fault] at hf
  have htxh : enabled .txh s.enableEvents = true ↔ s.txp = true := by simp [enabled_iff, hf]
  have hrxh : enabled .rxh s.enableEvents = true ↔ s.rxp = true := by simp [enabled_iff, hf]
  exact ⟨rfl, rfl, rfl, Bool.eq_iff_iff.mpr htxh, Bool.eq_iff_iff.mpr hrxh⟩

/-- Running, every slot below N is written (R33), and TXC is below N (R32). -/
theorem currentOut_written {s : State} (hinv : s.Inv) (hm : s.mode = .running) : ∃ b, s.currentOut = .written b := by
  obtain ⟨⟨hc, -⟩, hseeded, -⟩ := hinv
  exact (Cell.ne_unwritten_iff _).mp (hseeded hm _ hc)

theorem rxd_written {s : State} (hinv : s.Inv) (hp : s.rxp = true) : ∃ b, s.rxd = .written b := by
  obtain ⟨-, -, hlatch, -⟩ := hinv
  exact (Cell.ne_unwritten_iff _).mp (hlatch.mp hp)

theorem exec_txh_of_enabled {s : State} (hinv : s.Inv) (h : enabled .txh s = true) :
    ∃ b, s.currentOut = .written b ∧ exec .txh s = .next (s.send b).ackTx.advanceTx := by
  obtain ⟨hl, hguard, -⟩ := (enabled_iff _ s).mp h
  obtain ⟨hm, hp⟩ := hguard rfl
  obtain ⟨b, hb⟩ := currentOut_written hinv hm
  obtain ⟨⟨hc, -⟩, -⟩ := hinv
  exact ⟨b, hb, exec_txh_sends hl hm hp hc hb⟩

theorem exec_rxh_of_enabled {s : State} (hinv : s.Inv) (h : enabled .rxh s = true) :
    ∃ b, s.rxd = .written b ∧ exec .rxh s = .next (s.currentIn b).ackRx.advanceRx := by
  obtain ⟨hl, -, hguard⟩ := (enabled_iff _ s).mp h
  obtain ⟨hm, hp⟩ := hguard rfl
  obtain ⟨b, hb⟩ := rxd_written hinv hp
  obtain ⟨⟨-, hc⟩, -⟩ := hinv
  exact ⟨b, hb, exec_rxh_stores hl hm hp hc hb⟩

/-- Settles O40: neither handler writes what the other one tests or reads, so that each is taken after the other with
the byte it had before, and the two write different fields. -/
theorem handlersCommute : Obligations.HandlersCommute := by
  intro s hinv htxh hrxh
  obtain ⟨hl, htxGuard, -⟩ := (enabled_iff _ s).mp htxh
  obtain ⟨-, -, hrxGuard⟩ := (enabled_iff _ s).mp hrxh
  obtain ⟨hm, htxp⟩ := htxGuard rfl
  obtain ⟨-, hrxp⟩ := hrxGuard rfl
  obtain ⟨b, hb, htx⟩ := exec_txh_of_enabled hinv htxh
  obtain ⟨c, hc, hrx⟩ := exec_rxh_of_enabled hinv hrxh
  obtain ⟨⟨htxc, hrxc⟩, -⟩ := hinv
  have hrx' := exec_rxh_stores (s := (s.send b).ackTx.advanceTx) hl hm hrxp hrxc hc
  have htx' := exec_txh_sends (s := (s.currentIn c).ackRx.advanceRx) hl hm htxp htxc hb
  exact ⟨_, _, _, htx, hrx', hrx, htx'⟩

/-- With N = 1 the only cursor in range is 0, and it is the last one. -/
theorem advance_of_size_one {n : FrameSize} {c : Half} (hn : n.size = 1) (h : c.toNat < n.size) :
    c.toNat = 0 ∧ advance n c = 0 := by
  have hc : c.toNat = 0 := by omega
  exact ⟨hc, by rw [advance_eq, if_pos (by omega)]⟩

/-- Settles O52: with N = 1 each cursor is 0 before and after its handler. -/
theorem singleBytePingPong : Obligations.SingleBytePingPong := by
  intro s hinv hn
  have ⟨⟨htxlt, hrxlt⟩, _⟩ := hinv
  obtain ⟨htxc, htx⟩ := advance_of_size_one hn htxlt
  obtain ⟨hrxc, hrx⟩ := advance_of_size_one hn hrxlt
  refine ⟨fun h => ?_, fun h => ?_⟩
  · obtain ⟨b, hb, hexec⟩ := exec_txh_of_enabled hinv h
    rw [State.currentOut, htxc] at hb
    exact ⟨_, b, hexec, hb, rfl, htx⟩
  · obtain ⟨b, hb, hexec⟩ := exec_rxh_of_enabled hinv h
    refine ⟨_, hexec, ?_, hrx⟩
    rw [hb, ← hrxc]
    exact Memory.read_write_same _ _ b

end Sys2Proof.Machine
end

section
/-!
PROOF. A run that keeps the source's contract has no fault (60_exceptions.md R113): the contract asks of each label the
tests that the label makes, and the invariant is the test of TXH (R33).
-/

namespace Sys2Proof.Machine

theorem fault_eq_none_of_keepsContract {i : Instr} {s t : State} (hinv : s.Inv) (hk : keepsContract i s)
    (h : exec i s = .next t) : t.fault = none := by
  cases i with
  | wrout idx data =>
    obtain ⟨hidx, hidle⟩ := hk
    obtain ⟨hl, ⟨hi, -⟩ | ⟨-, hm, -⟩ | ⟨-, -, rfl⟩⟩ := execWrout_next h
    · exact absurd hidx (Nat.not_lt.mpr hi)
    · simp [hidle] at hm
    · exact hl
  | rdout idx =>
    obtain ⟨hidx, hwritten⟩ := hk
    obtain ⟨hl, ⟨hi, -⟩ | ⟨-, hc, -⟩ | ⟨-, b, -, rfl⟩⟩ := execRdout_next h
    · exact absurd hidx (Nat.not_lt.mpr hi)
    · exact absurd hc hwritten
    · exact hl
  | rdin idx =>
    obtain ⟨hidx, hwritten⟩ := hk
    obtain ⟨hl, ⟨hi, -⟩ | ⟨-, hc, -⟩ | ⟨-, b, -, rfl⟩⟩ := execRdin_next h
    · exact absurd hidx (Nat.not_lt.mpr hi)
    · exact absurd hc hwritten
    · exact hl
  | rdstat | rdtxc | rdrxc | reset =>
    obtain ⟨hl, h⟩ := whenLive_next h
    cases h
    exact hl
  | arm =>
    obtain ⟨hidle, hseeded⟩ := hk
    obtain ⟨hl, ⟨hm, -⟩ | ⟨-, ho, -⟩ | ⟨-, -, rfl⟩⟩ := execArm_next h
    · simp [hidle] at hm
    · exact absurd ((Memory.allWritten_iff _ _).mpr hseeded) (Bool.eq_false_iff.mp ho)
    · exact hl
  | txrdy =>
    obtain ⟨hl, ⟨hp, -⟩ | ⟨-, rfl⟩⟩ := execTxrdy_next h
    · exact absurd hp (Bool.eq_false_iff.mp hk)
    · exact hl
  | rxrdy data =>
    obtain ⟨hl, ⟨hp, -⟩ | ⟨-, rfl⟩⟩ := execRxrdy_next h
    · exact absurd hp (Bool.eq_false_iff.mp hk)
    · exact hl
  | txh =>
    obtain ⟨hl, hm, -, -, ⟨hc, -⟩ | ⟨b, -, rfl⟩⟩ := execTxh_next h
    · exact absurd hc ((Cell.ne_unwritten_iff _).mpr (currentOut_written hinv hm))
    · exact hl
  | rxh =>
    obtain ⟨hl, -, -, -, b, -, rfl⟩ := execRxh_next h
    exact hl

theorem ContractReachable.inv_and_good {n : FrameSize} {s : State} (h : ContractReachable n s) : s.Inv ∧ s.good := by
  induction h with
  | start ws => exact ⟨inv_withScript (inv_start n) ws, rfl⟩
  | label i _ hk hexec ih =>
    obtain ⟨hinv, -⟩ := ih
    exact ⟨exec_keeps_inv hinv hexec, fault_eq_none_of_keepsContract hinv hk hexec⟩

/-- Settles O47: the contract asks nothing of the handlers, so they keep it everywhere. -/
theorem contractMeansNoFault : Obligations.ContractMeansNoFault := by
  intro n s h
  obtain ⟨hinv, hgood⟩ := h.inv_and_good
  refine ⟨hgood, fun i t hi hexec => fault_eq_none_of_keepsContract hinv ?_ hexec⟩
  rcases hi with rfl | rfl <;> trivial

end Sys2Proof.Machine
end

section
/-!
PROOF. The stream (41_duplex_engine.md R98, R99; log entry 11). In a run without fault and without RESET a pending
transmit event stays pending until TXH, fairness brings TXH, and AUTO_REPEAT brings the next event.
-/

namespace Sys2Proof.Machine

section
variable {r : EndlessRun} (hfault : ∀ k, (r.state k).fault = none) (hreset : ∀ k, r.label k ≠ .reset)

include hreset in
theorem EndlessRun.running (hm : (r.state 0).mode = .running) (k : Nat) : (r.state k).mode = .running := by
  induction k with
  | zero => exact hm
  | succ k ih =>
    cases hnext : (r.state (k + 1)).mode with
    | running => rfl
    | idle => exact absurd ((modeMovesOnlyByArmAndReset _ _ _ (r.taken k)).2 ih hnext) (hreset k)

include hreset in
theorem EndlessRun.pending_succ {k : Nat} (hp : (r.state k).txp = true) (htxh : r.label k ≠ .txh) :
    (r.state (k + 1)).txp = true := by
  obtain ⟨-, -, -, -, -, -, hclear, -⟩ := eachPieceHasItsWriters _ _ _ (r.taken k)
  by_contra hne
  exact (hclear hp (Bool.eq_false_iff.mpr hne)).elim (hreset k) htxh

include hfault in
theorem EndlessRun.txlog_length_succ_of_txh {k : Nat} (htxh : r.label k = .txh) :
    (r.state (k + 1)).txlog.length = (r.state k).txlog.length + 1 := by
  obtain ⟨b, hb⟩ := (txlogGrowsOnlyByTxh _ _ _ (r.taken k)).2 htxh (hfault (k + 1))
  rw [hb, List.length_append, List.length_singleton]

include hfault in
theorem EndlessRun.txlog_length_monotone : Monotone fun k => (r.state k).txlog.length := by
  refine monotone_nat_of_le_succ fun k => ?_
  by_cases htxh : r.label k = .txh
  · exact (EndlessRun.txlog_length_succ_of_txh hfault htxh).symm ▸ Nat.le_succ _
  · exact ((txlogGrowsOnlyByTxh _ _ _ (r.taken k)).1 htxh).symm ▸ Nat.le_refl _

include hfault hreset in
/-- While no TXH is taken a pending event keeps TXH enabled, and fairness does not allow that for ever. -/
theorem EndlessRun.exists_txh (hm : (r.state 0).mode = .running) (hfair : r.weaklyFair .txh) {k : Nat}
    (hp : (r.state k).txp = true) : ∃ j, k ≤ j ∧ r.label j = .txh := by
  by_contra hnone
  have htxh (j : Nat) (hj : k ≤ j) : r.label j ≠ .txh := fun h => hnone ⟨j, hj, h⟩
  have hpending (j : Nat) (hj : k ≤ j) : (r.state j).txp = true := by
    induction j, hj using Nat.le_induction with
    | base => exact hp
    | succ j hj ih => exact EndlessRun.pending_succ hreset ih (htxh j hj)
  refine hnone (hfair k fun j hj => (enabled_iff _ _).mpr ⟨hfault j, fun _ => ?_, nofun⟩)
  exact ⟨EndlessRun.running hreset hm j, hpending j hj⟩

include hfault in
theorem EndlessRun.pending_after_txrdy {k : Nat} (h : r.label k = .txrdy) : (r.state (k + 1)).txp = true := by
  have hexec := r.taken k
  rw [h] at hexec
  obtain ⟨-, ht⟩ := effect_of_exec hexec (hfault (k + 1))
  rw [ht, State.latchTx_txp]

end

/-- Settles O56: by induction on the bound there is a moment with an event pending and m bytes sent; the TXH after it
sends one more, and the TXRDY after that has the next event pending. -/
theorem streamContinuesUnderAutoRepeat : Obligations.StreamContinuesUnderAutoRepeat := by
  intro r hfault hm hp hreset hrepeat hfair m
  have hmono := EndlessRun.txlog_length_monotone hfault
  suffices h : ∃ k, (r.state k).txp = true ∧ m ≤ (r.state k).txlog.length from h.imp fun _ => And.right
  induction m with
  | zero => exact ⟨0, hp, Nat.zero_le _⟩
  | succ m ih =>
    obtain ⟨k, hpk, hlen⟩ := ih
    obtain ⟨j, hkj, htxh⟩ := EndlessRun.exists_txh hfault hreset hm hfair hpk
    obtain ⟨l, hjl, htxrdy⟩ := hrepeat j htxh
    refine ⟨l + 1, EndlessRun.pending_after_txrdy hfault htxrdy, ?_⟩
    calc m + 1 ≤ (r.state k).txlog.length + 1 := Nat.succ_le_succ hlen
      _ ≤ (r.state j).txlog.length + 1 := Nat.succ_le_succ (hmono hkj)
      _ = (r.state (j + 1)).txlog.length := (EndlessRun.txlog_length_succ_of_txh hfault htxh).symm
      _ ≤ (r.state (l + 1)).txlog.length := hmono (by omega)

end Sys2Proof.Machine
end

section
/-!
PROOF. Fault entry (60_exceptions.md R108, R111, R112): what a label or the decoder records has its cause, and of the
tests of one label the first that fails is the one reported.
-/

namespace Sys2Proof.Machine

theorem Memory.exists_unwritten {m : Memory} {n : Nat} (h : m.allWritten n = false) :
    ∃ i < n, m.read i = .unwritten := by
  by_contra hnone
  exact Bool.eq_false_iff.mp h ((Memory.allWritten_iff m n).mpr fun i hi hread => hnone ⟨i, hi, hread⟩)

/-- Label by label, along the tests of its meaning: the test that fails is the cause of the code it records. -/
theorem exec_records_cause {i : Instr} {s t : State} (h : exec i s = .next t) :
    t.fault = none ∨ ∃ c, t = s.record c (encode i) ∧ faultCause c (encode i) s := by
  have hd := decode_encode i
  cases i with
  | wrout idx data =>
    obtain ⟨hl, ⟨hi, ht⟩ | ⟨-, hm, ht⟩ | ⟨-, -, rfl⟩⟩ := execWrout_next h
    · exact .inr ⟨_, ht, idx, data, hi, .inl hd⟩
    · exact .inr ⟨_, ht, idx, data, hd, hm⟩
    · exact .inl hl
  | rdout idx =>
    obtain ⟨hl, ⟨hi, ht⟩ | ⟨-, hc, ht⟩ | ⟨-, b, -, rfl⟩⟩ := execRdout_next h
    · exact .inr ⟨_, ht, idx, 0, hi, .inr (.inl hd)⟩
    · exact .inr ⟨_, ht, idx, .inl ⟨hd, hc⟩⟩
    · exact .inl hl
  | rdin idx =>
    obtain ⟨hl, ⟨hi, ht⟩ | ⟨-, hc, ht⟩ | ⟨-, b, -, rfl⟩⟩ := execRdin_next h
    · exact .inr ⟨_, ht, idx, 0, hi, .inr (.inr hd)⟩
    · exact .inr ⟨_, ht, idx, .inr ⟨hd, hc⟩⟩
    · exact .inl hl
  | rdstat | rdtxc | rdrxc | reset =>
    obtain ⟨hl, h⟩ := whenLive_next h
    cases h
    exact .inl hl
  | arm =>
    obtain ⟨hl, ⟨hm, ht⟩ | ⟨-, ho, ht⟩ | ⟨-, -, rfl⟩⟩ := execArm_next h
    · exact .inr ⟨_, ht, hd, hm⟩
    · exact .inr ⟨_, ht, hd, Memory.exists_unwritten ho⟩
    · exact .inl hl
  | txrdy =>
    obtain ⟨hl, ⟨hp, ht⟩ | ⟨-, rfl⟩⟩ := execTxrdy_next h
    · exact .inr ⟨_, ht, hd, hp⟩
    · exact .inl hl
  | rxrdy data =>
    obtain ⟨hl, ⟨hp, ht⟩ | ⟨-, rfl⟩⟩ := execRxrdy_next h
    · exact .inr ⟨_, ht, data, hd, hp⟩
    · exact .inl hl
  | txh =>
    obtain ⟨hl, -, -, -, ⟨hc, ht⟩ | ⟨b, -, rfl⟩⟩ := execTxh_next h
    · exact .inr ⟨_, ht, hd, hc⟩
    · exact .inl hl
  | rxh =>
    obtain ⟨hl, -, -, -, b, -, rfl⟩ := execRxh_next h
    exact .inl hl

/-- No cause reads the script, so it may be stated of the state in which the word still stands there. -/
theorem step_records_cause {s t : State} {w : Word} {ws : List Word} (hs : s.script = w :: ws)
    (h : step s = .next t) : t.fault = none ∨ ∃ c, t = (s.withScript ws).record c w ∧ faultCause c w s := by
  rw [step_of_script_cons hs] at h
  obtain ⟨-, ⟨i, hd, he⟩ | ⟨e, hd, ht⟩⟩ := takeWord_next h
  · obtain rfl := encodeOfDecodeIsTheWord w i hd
    exact exec_records_cause he
  · refine .inr ⟨decodeCode e, ht, ?_⟩
    cases e <;> exact hd

/-- Settles O13: the step records the fault and nothing else, and FAULT disables every label. -/
theorem faultEntryChangesOnlyFault : Obligations.FaultEntryChangesOnlyFault := by
  intro s t w ws _ hs h hf
  obtain hnone | ⟨c, rfl, -⟩ := step_records_cause hs h
  · exact absurd hnone hf
  · exact ⟨⟨c, rfl⟩, faultedMachineIsStuck _ hf⟩

/-- Settles O14: the numbers by the table, and the record that the step has made is the one found. -/
theorem recordedFaultHasItsCause : Obligations.RecordedFaultHasItsCause := by
  refine ⟨rfl, fun s t w ws r _ hs h hr => ?_⟩
  obtain hnone | ⟨c, rfl, hcause⟩ := step_records_cause hs h
  · cases hnone.symm.trans hr
  · obtain rfl : ⟨c, w⟩ = r := Option.some.inj hr
    exact ⟨rfl, hcause⟩

/-- Settles O15: each clause is an outcome of its label, or of the decoder, under the tests that come before. -/
theorem faultPriorityPerLabel : Obligations.FaultPriorityPerLabel := by
  intro s hl
  refine ⟨fun w ws => illegalOpcodeFaults s w ws hl, fun w ws hs => step_of_decode_error hl hs, fun idx data => ?_,
    fun idx data hi hm => exec_wrout_running hl hi hm data, fun idx hi => ?_, fun idx => ?_, fun idx => ?_,
    exec_arm_running hl, exec_arm_unseeded hl, exec_txrdy_pending hl, exec_rxrdy_pending hl, exec_txh_notEnabled hl⟩
  · exact (wroutSeedsItsSlot idx data s hl).left
  · exact ⟨(rdoutReturnsItsSlot idx s hl).left hi, (rdinReturnsItsSlot idx s hl).left hi⟩
  · obtain ⟨-, hunwritten, -⟩ := rdoutReturnsItsSlot idx s hl
    exact hunwritten
  · obtain ⟨-, hunwritten, -⟩ := rdinReturnsItsSlot idx s hl
    exact hunwritten

end Sys2Proof.Machine
end

section
/-!
PROOF. The label RESET (70_reset_and_hazards.md R126 to R128): what its assignments leave, and that no handler is
enabled right after them.
-/

namespace Sys2Proof.Machine

/-- Settles O29: without a fault RESET has its effect, and an emptied space reads Unwritten at every slot. -/
theorem resetRestoresEverything : Obligations.ResetRestoresEverything := by
  intro s hl
  have hreset : exec .reset s = .next s.clear := exec_of_effect hl rfl
  exact ⟨s.clear, hreset, fun i => ⟨Memory.read_nil i, Memory.read_nil i⟩, rfl⟩

/-- Settles O30: RESET clears TXP and RXP, so that the guard of each handler is false. -/
theorem noHandlerRightAfterReset : Obligations.NoHandlerRightAfterReset := by
  intro s t h
  obtain ⟨hl, rfl⟩ := execReset_next h
  have htxh : ¬ (s.clear.mode = .running ∧ s.clear.txp = true) := by simp
  have hrxh : ¬ (s.clear.mode = .running ∧ s.clear.rxp = true) := by simp
  exact ⟨rfl, rfl, rfl, rfl, exec_txh_notEnabled hl htxh, exec_rxh_notEnabled hl hrxh⟩

end Sys2Proof.Machine
end
